-- ==== Sys2Proof/Word.lean ====
section
/-! DEFINITION. The widths of DXL-CORE's values (00_scope.md R12): bytes, 16-bit fields, 32-bit register values, the
2^n-byte register widths, and timestamps. -/

namespace Sys2Proof

/-- A byte value, a servo ID, an opcode, a checksum: 8 bits (R12). -/
abbrev Byte := BitVec 8

/-- A declared length, a register address, a count, a CRC: 16 bits (R12). -/
abbrev Half := BitVec 16

/-- A decoded register value, at most 32 bits (R12). -/
abbrev Value := BitVec 32

/-- A timestamp (R8). TIME_W is open (R11) and the arithmetic on timestamps is exact and never wraps (R76), so a
timestamp is a natural number here; that it fits in TIME_W bits is a duty of the host (log 4). -/
abbrev Time := Nat

/-- A register byte width: one of 1, 2, 4 (R12, R84). -/
inductive Width where
  | w1 | w2 | w4
  deriving DecidableEq, Repr

/-- The number of bytes of a width. -/
def Width.bytes : Width → Nat
  | .w1 => 1
  | .w2 => 2
  | .w4 => 4

end Sys2Proof
end

