-- ==== Sys2Proof/Machine/Bytes.lean ====
section
/-! DEFINITION. Byte order: every multi-byte field of both wire formats is little-endian (20_memory.md R32, R33;
primitives of 00_scope.md R15). -/

namespace Sys2Proof.Machine

/-- `le16(lo, hi)`: the byte that arrives first is the least significant (R15, R32). -/
def le16 (lo hi : Byte) : Half := lo.setWidth 16 ||| (hi.setWidth 16 <<< 8)

/-- `LE(l)`: the sum over k of `l[k] * 256^k` (R15, R33). -/
def leNat : List Byte → Nat
  | [] => 0
  | b :: t => b.toNat + 256 * leNat t

/-- Bits 7..0 of a 16-bit field: the byte that is sent first. -/
def loByte (h : Half) : Byte := h.setWidth 8

/-- Bits 15..8 of a 16-bit field: the byte that is sent second. -/
def hiByte (h : Half) : Byte := (h >>> 8).setWidth 8

/-- `zext_16` of a byte (R13). -/
def zext16 (b : Byte) : Half := b.setWidth 16

end Sys2Proof.Machine
end

