-- ==== Sys2Proof/Machine/Check.lean ====
section
/-! DEFINITION. The two check algorithms over bytes: the Protocol 1 checksum (41_p1_decoder.md R60) and the Protocol 2
CRC-16 (42_p2_decoder.md R64 to R67). -/

namespace Sys2Proof.Machine

/-- The 8-bit running sum over a list of bytes, modulo 256 at every addition (R60). -/
def sumBytes (s : Byte) : List Byte → Byte
  | [] => s
  | b :: t => sumBytes (s + b) t

/-- The Protocol 1 checksum from the finished running sum: its one's complement (R60, R63). -/
def checksumOf (sum : Byte) : Byte := ~~~sum

/-- The checksum of a Protocol 1 frame's summed bytes: ID, LEN, INST, PARAM (R60). -/
def checksum (bytes : List Byte) : Byte := checksumOf (sumBytes 0 bytes)

/-- `CRC_TABLE[i]` (R66, 00_scope.md R15). -/
def crcEntry (i : Byte) : Half := crcTable.getD i.toNat 0

/-- The CRC update of one byte (R65). -/
def crcUpd (crc : Half) (byte : Byte) : Half := (crc <<< 8) ^^^ crcEntry ((crc >>> 8).setWidth 8 ^^^ byte)

/-- The running CRC over a list of bytes (R64). -/
def crcBytes (crc : Half) : List Byte → Half
  | [] => crc
  | b :: t => crcBytes (crcUpd crc b) t

/-- The CRC of a byte string from 0 (R64). -/
def crcOf (bytes : List Byte) : Half := crcBytes 0 bytes

/-- `CRC_SEED_FFFF` (R67): the CRC of the two preamble bytes. -/
def crcSeed : Half := 0x800D

end Sys2Proof.Machine
end

