-- ==== Sys2Proof/Config.lean ====
section
/-! DEFINITION. What a session or an implementation fixes: the two protocols, the configuration register `cfg`
(10_state.md R25), the servo families, the register descriptors (44_dispatch.md R84), and the implementation
parameters of 00_scope.md R11. All of it is plain data. -/

namespace Sys2Proof

/-- The two wire protocols (00_scope.md R1). -/
inductive Proto where
  | p1 | p2
  deriving DecidableEq, Repr

/-- The values of TABSEL: the register-table families (R83). -/
inductive Family where
  | ax | mx | xl | x | board
  deriving DecidableEq, Repr

/-- The configuration register, field by field as R25 encodes it. -/
structure Cfg where
  /-- numeric display base: 0 Auto, 1 Dec, 2 Hex, 3 invalid -/
  base : BitVec 2
  /-- Protocol 1 servo family: 0 AX, 1 MX, 2 XL, 3 X, 4 to 7 invalid -/
  fam1 : BitVec 3
  /-- Protocol 2 servo family: 0 X, 1 MX, 2 XL, 3 invalid -/
  fam2 : BitVec 2
  /-- controller-board hint: 0 Unknown, 1 reserved-ID device, 2 controller board, 3 invalid -/
  board : BitVec 2
  /-- register-pair display toggle: 0 no, 1 yes -/
  pairs : BitVec 1
  deriving DecidableEq, Repr

/-- The source's RegisterDescriptor without its address (R84). -/
structure RegDescriptor where
  name : String
  width : Width
  deriving DecidableEq, Repr

/-- One entry of REGTAB: the descriptor of an address in a family's table (R84). -/
structure RegEntry where
  fam : Family
  addr : Half
  desc : RegDescriptor
  deriving DecidableEq, Repr

/-- One exception to the default TABSEL (R83): at exactly these arguments the function's value is `fam`. TABSEL has
finitely many arguments, so a list of these says every function a model may supply. The fields `base` and `pairs` of
`cfg` are left out: no rule of the block depends on them (R25; log 9). -/
structure TabRule where
  proto : Proto
  fam1 : BitVec 3
  fam2 : BitVec 2
  board : BitVec 2
  id : Byte
  fam : Family
  deriving DecidableEq, Repr

/-- BYTE_DURATION_MODE (R11, R76). -/
inductive DurMode where
  | current | previous
  deriving DecidableEq, Repr

/-- The implementation parameters of R11 that a model takes as arguments. -/
structure Params where
  /-- TIME_W, open in the spec -/
  timeW : Nat
  /-- K_TIMEOUT -/
  kTimeout : Nat
  /-- BYTE_DURATION_MODE -/
  durMode : DurMode
  /-- PAYLOAD_CAP, in bytes -/
  payloadCap : Nat
  /-- REGTAB: the first entry for a family and an address counts -/
  regtab : List RegEntry
  /-- TABSEL's exceptions to its default: the first that applies counts -/
  tabsel : List TabRule
  deriving DecidableEq, Repr

/-- UNKNOWN_REG_WIDTH = 1: the width of an address that the table does not hold (R11, R39, decision D16). -/
def Config.unknownRegWidth : Width := .w1

/-- N_IDS: one bulk-map entry for each one-byte servo ID (R11). -/
def Config.nIds : Nat := 256

end Sys2Proof
end

