-- ==== Sys2Proof/Syntax.lean ====
section
/-! DEFINITION. The instructions: one constructor for each row of spec/opcode_table.json (30_encoding.md R49). An
instruction is a frame's opcode with its operands, the payload bytes (R51); the UNKNOWN rows stand for every opcode
without a row of its own, so those constructors carry the opcode byte. The frame's header (its ID) and its trailer
are no part of the instruction. -/

namespace Sys2Proof

/-- The mnemonics of R49: what a record's `op` names (44_dispatch.md R86). -/
inductive Mnemonic where
  | response | ping | read | write | regWrite | action | factoryReset | reboot | clear | backup
  | syncRead | syncWrite | bulkRead | bulkWrite | unknown
  deriving DecidableEq, Repr

inductive Instr where
  | p1Response (pay : List Byte)
  | p1Ping (pay : List Byte)
  | p1Read (pay : List Byte)
  | p1Write (pay : List Byte)
  | p1RegWrite (pay : List Byte)
  | p1Action (pay : List Byte)
  | p1FactoryReset (pay : List Byte)
  | p1Reboot (pay : List Byte)
  | p1SyncWrite (pay : List Byte)
  | p1BulkRead (pay : List Byte)
  | p1BulkWrite (pay : List Byte)
  | p1Unknown (opc : Byte) (pay : List Byte)
  | p2Response (pay : List Byte)
  | p2Ping (pay : List Byte)
  | p2Read (pay : List Byte)
  | p2Write (pay : List Byte)
  | p2RegWrite (pay : List Byte)
  | p2Action (pay : List Byte)
  | p2FactoryReset (pay : List Byte)
  | p2Reboot (pay : List Byte)
  | p2Clear (pay : List Byte)
  | p2Backup (pay : List Byte)
  | p2SyncRead (pay : List Byte)
  | p2SyncWrite (pay : List Byte)
  | p2BulkRead (pay : List Byte)
  | p2BulkWrite (pay : List Byte)
  | p2Unknown (opc : Byte) (pay : List Byte)
  deriving DecidableEq, Repr

/-- The protocol of an instruction: bit 8 of its decode key (R49). -/
def Instr.proto : Instr → Proto
  | .p1Response _ | .p1Ping _ | .p1Read _ | .p1Write _ | .p1RegWrite _ | .p1Action _ | .p1FactoryReset _
  | .p1Reboot _ | .p1SyncWrite _ | .p1BulkRead _ | .p1BulkWrite _ | .p1Unknown _ _ => .p1
  | .p2Response _ | .p2Ping _ | .p2Read _ | .p2Write _ | .p2RegWrite _ | .p2Action _ | .p2FactoryReset _
  | .p2Reboot _ | .p2Clear _ | .p2Backup _ | .p2SyncRead _ | .p2SyncWrite _ | .p2BulkRead _ | .p2BulkWrite _
  | .p2Unknown _ _ => .p2

/-- The operand bytes of an instruction: the frame's payload (R51). -/
def Instr.payload : Instr → List Byte
  | .p1Response pay | .p1Ping pay | .p1Read pay | .p1Write pay | .p1RegWrite pay | .p1Action pay
  | .p1FactoryReset pay | .p1Reboot pay | .p1SyncWrite pay | .p1BulkRead pay | .p1BulkWrite pay
  | .p1Unknown _ pay | .p2Response pay | .p2Ping pay | .p2Read pay | .p2Write pay | .p2RegWrite pay
  | .p2Action pay | .p2FactoryReset pay | .p2Reboot pay | .p2Clear pay | .p2Backup pay | .p2SyncRead pay
  | .p2SyncWrite pay | .p2BulkRead pay | .p2BulkWrite pay | .p2Unknown _ pay => pay

/-- The mnemonic of an instruction (R49). -/
def Instr.mnemonic : Instr → Mnemonic
  | .p1Response _ | .p2Response _ => .response
  | .p1Ping _ | .p2Ping _ => .ping
  | .p1Read _ | .p2Read _ => .read
  | .p1Write _ | .p2Write _ => .write
  | .p1RegWrite _ | .p2RegWrite _ => .regWrite
  | .p1Action _ | .p2Action _ => .action
  | .p1FactoryReset _ | .p2FactoryReset _ => .factoryReset
  | .p1Reboot _ | .p2Reboot _ => .reboot
  | .p2Clear _ => .clear
  | .p2Backup _ => .backup
  | .p2SyncRead _ => .syncRead
  | .p1SyncWrite _ | .p2SyncWrite _ => .syncWrite
  | .p1BulkRead _ | .p2BulkRead _ => .bulkRead
  | .p1BulkWrite _ | .p2BulkWrite _ => .bulkWrite
  | .p1Unknown _ _ | .p2Unknown _ _ => .unknown

end Sys2Proof
end

