-- ==== Sys2Proof/WellFormed.lean ====
section
/-! DEFINITION. Which instructions and frames a wire format can carry (30_encoding.md R44, R45, R49). -/

namespace Sys2Proof

/-- The opcodes that R49 gives a row of their own in Protocol 1 (11 of them). -/
def p1Opcodes : List Byte := [0x00, 0x01, 0x02, 0x03, 0x04, 0x05, 0x06, 0x08, 0x83, 0x92, 0x93]

/-- The opcodes that R49 gives a row of their own in Protocol 2 (14 of them). -/
def p2Opcodes : List Byte :=
  [0x55, 0x01, 0x02, 0x03, 0x04, 0x05, 0x06, 0x08, 0x10, 0x20, 0x82, 0x83, 0x92, 0x93]

/-- The largest payload a protocol's length field can declare: 253 bytes (R44) or 65532 bytes (R45). -/
def maxPayload : Proto → Nat
  | .p1 => 253
  | .p2 => 65532

/-- An UNKNOWN instruction carries an opcode that has no row of its own (R49). -/
def Instr.opcodeOk : Instr → Bool
  | .p1Unknown opc _ => !p1Opcodes.contains opc
  | .p2Unknown opc _ => !p2Opcodes.contains opc
  | _ => true

/-- A well-formed instruction: its payload fits its protocol's length field, and its opcode is its own. -/
def Instr.wf (i : Instr) : Bool :=
  decide (i.payload.length ≤ maxPayload i.proto) && i.opcodeOk

/-- An ID a frame of the protocol can carry: in Protocol 1 every byte but 0xFF, which is taken as a further preamble
byte (R38, R44); in Protocol 2 every byte (R45). -/
def idOk : Proto → Byte → Bool
  | .p1, id => id != 0xFF
  | .p2, _ => true

/-- A frame a wire format can carry: an ID and a well-formed instruction. -/
def frameWf (id : Byte) (i : Instr) : Bool := idOk i.proto id && i.wf

end Sys2Proof
end

