-- ==== Sys2Proof/Decode.lean ====
section
/-! DEFINITION. The decoder and, after it, the encoder. The decode key and the opcode map (30_encoding.md R49), the
wire formats of both protocols (R44, R45, R47, R48), and the minimum payloads (R51). Decoding is total: a byte string
that is no frame is rejected by name. -/

namespace Sys2Proof

open Sys2Proof.Machine

/-! ### The opcode map -/

/-- The 9-bit decode key: bit 8 the protocol, bits 7..0 the opcode byte (R49). -/
def decodeKey (p : Proto) (opc : Byte) : BitVec 9 :=
  (match p with
    | .p1 => 0x000#9
    | .p2 => 0x100#9) ||| opc.setWidth 9

/-- The rows of spec/opcode_table.json that fix the whole key, Protocol 1 (R49). -/
def p1Rows : List (BitVec 9 × (List Byte → Instr)) :=
  [ (0x000, .p1Response), (0x001, .p1Ping), (0x002, .p1Read), (0x003, .p1Write), (0x004, .p1RegWrite),
    (0x005, .p1Action), (0x006, .p1FactoryReset), (0x008, .p1Reboot), (0x083, .p1SyncWrite),
    (0x092, .p1BulkRead), (0x093, .p1BulkWrite) ]

/-- The rows of spec/opcode_table.json that fix the whole key, Protocol 2 (R49). -/
def p2Rows : List (BitVec 9 × (List Byte → Instr)) :=
  [ (0x155, .p2Response), (0x101, .p2Ping), (0x102, .p2Read), (0x103, .p2Write), (0x104, .p2RegWrite),
    (0x105, .p2Action), (0x106, .p2FactoryReset), (0x108, .p2Reboot), (0x110, .p2Clear), (0x120, .p2Backup),
    (0x182, .p2SyncRead), (0x183, .p2SyncWrite), (0x192, .p2BulkRead), (0x193, .p2BulkWrite) ]

/-- The UNKNOWN default rows: every key no other row matches (R49, R52, 44_dispatch.md R89). -/
def unknownRow : Proto → Byte → List Byte → Instr
  | .p1 => .p1Unknown
  | .p2 => .p2Unknown

/-- The instruction of a protocol, an opcode byte and a payload. Total: every key selects one handler (R49). -/
def decodeOp (p : Proto) (opc : Byte) (pay : List Byte) : Instr :=
  match (p1Rows ++ p2Rows).lookup (decodeKey p opc) with
  | some row => row pay
  | none => unknownRow p opc pay

/-! ### Decoding a frame's bytes -/

/-- Why a byte string is no frame. -/
inductive DecodeError where
  /-- the first two bytes are not FF FF (R44, R45) -/
  | noPreamble
  /-- FF FF FF: a further preamble byte, not an ID (R38, R46) -/
  | preambleRun
  /-- the declared length leaves no room for opcode and trailer (R44, R45, R52) -/
  | shortLength
  /-- the declared payload is larger than PAYLOAD_CAP (R52) -/
  | overflow
  /-- the string ends before the frame does -/
  | incomplete
  deriving DecidableEq, Repr

/-- A decoded frame: its ID, its instruction, the computed and the received check value, and the bytes after it. -/
structure Decoded where
  id : Byte
  instr : Instr
  chkExp : Half
  chkAct : Half
  rest : List Byte
  deriving DecidableEq, Repr

/-- A Protocol 1 frame after its ID and LEN bytes (R44): opcode, LEN - 2 payload bytes, one checksum byte. -/
def decodeP1 (cap : Nat) (id len : Byte) (bytes : List Byte) : Except DecodeError Decoded :=
  if len.toNat < 2 then .error .shortLength
  else if len.toNat - 2 > cap then .error .overflow
  else match bytes with
    | [] => .error .incomplete
    | opc :: tail =>
      let n := len.toNat - 2
      match tail.drop n with
      | [] => .error .incomplete
      | chk :: rest =>
        .ok { id, instr := decodeOp .p1 opc (tail.take n),
              chkExp := zext16 (checksum (id :: len :: opc :: tail.take n)), chkAct := zext16 chk, rest }

/-- A Protocol 2 frame after FF FF FD 00 (R45): ID, length low, length high, opcode, LEN - 3 payload bytes, two CRC
bytes. The CRC runs from the first preamble byte through the last payload byte (42_p2_decoder.md R64). -/
def decodeP2 (cap : Nat) (bytes : List Byte) : Except DecodeError Decoded :=
  match bytes with
  | id :: lenL :: lenH :: more =>
    let len := (le16 lenL lenH).toNat
    if len < 3 then .error .shortLength
    else if len - 3 > cap then .error .overflow
    else match more with
      | [] => .error .incomplete
      | opc :: tail =>
        let n := len - 3
        match tail.drop n with
        | crcL :: crcH :: rest =>
          .ok { id, instr := decodeOp .p2 opc (tail.take n),
                chkExp := crcOf (0xFF :: 0xFF :: 0xFD :: 0x00 :: id :: lenL :: lenH :: opc :: tail.take n),
                chkAct := le16 crcL crcH, rest }
        | _ => .error .incomplete
  | _ => .error .incomplete

/-- The frame at the head of a byte string (R44, R45, R47). A wrong check value does not make it no frame
(60_exceptions.md R112): both values are in the answer. -/
def decodeFrame (cap : Nat) (bytes : List Byte) : Except DecodeError Decoded :=
  match bytes with
  | f0 :: f1 :: id :: len :: more =>
    if f0 ≠ 0xFF ∨ f1 ≠ 0xFF then .error .noPreamble
    else if id = 0xFF then .error .preambleRun
    else if id = 0xFD ∧ len = 0x00 then decodeP2 cap more
    else decodeP1 cap id len more
  | _ => .error .incomplete

/-! ### Encoding -/

/-- The opcode byte of an instruction (R49). -/
def Instr.opcode : Instr → Byte
  | .p1Response _ => 0x00
  | .p2Response _ => 0x55
  | .p1Ping _ | .p2Ping _ => 0x01
  | .p1Read _ | .p2Read _ => 0x02
  | .p1Write _ | .p2Write _ => 0x03
  | .p1RegWrite _ | .p2RegWrite _ => 0x04
  | .p1Action _ | .p2Action _ => 0x05
  | .p1FactoryReset _ | .p2FactoryReset _ => 0x06
  | .p1Reboot _ | .p2Reboot _ => 0x08
  | .p2Clear _ => 0x10
  | .p2Backup _ => 0x20
  | .p2SyncRead _ => 0x82
  | .p1SyncWrite _ | .p2SyncWrite _ => 0x83
  | .p1BulkRead _ | .p2BulkRead _ => 0x92
  | .p1BulkWrite _ | .p2BulkWrite _ => 0x93
  | .p1Unknown opc _ | .p2Unknown opc _ => opc

/-- The bytes of a Protocol 1 frame before its trailer, from the ID on (R44): ID, LEN = N + 2, INST, PARAM. -/
def p1Body (id opc : Byte) (pay : List Byte) : List Byte := id :: BitVec.ofNat 8 (pay.length + 2) :: opc :: pay

/-- The bytes of a Protocol 2 frame before its trailer (R45): preamble, FD 00, ID, LEN = N + 3 low byte first, INST,
PARAM. -/
def p2Body (id opc : Byte) (pay : List Byte) : List Byte :=
  let len := BitVec.ofNat 16 (pay.length + 3)
  0xFF :: 0xFF :: 0xFD :: 0x00 :: id :: loByte len :: hiByte len :: opc :: pay

/-- The wire bytes of a frame of protocol, ID, opcode and payload, with its correct trailer (R44, R45, R60, R64). -/
def encodeRaw (p : Proto) (id opc : Byte) (pay : List Byte) : List Byte :=
  match p with
  | .p1 => 0xFF :: 0xFF :: (p1Body id opc pay ++ [checksum (p1Body id opc pay)])
  | .p2 => p2Body id opc pay ++ [loByte (crcOf (p2Body id opc pay)), hiByte (crcOf (p2Body id opc pay))]

/-- The wire bytes of an instruction sent to (or by) the servo `id`. -/
def encode (id : Byte) (i : Instr) : List Byte := encodeRaw i.proto id i.opcode i.payload

/-! ### The opcode table's words -/

/-- The smallest payload that a handler's structure needs (R51). -/
def minPayload (p : Proto) (opc : Byte) : Nat :=
  match decodeOp p opc [] with
  | .p1Read _ | .p1SyncWrite _ => 2
  | .p2Read _ | .p2SyncWrite _ => 4
  | .p1Write _ | .p1RegWrite _ => 1
  | .p2Write _ | .p2RegWrite _ => 2
  | _ => 0

/-- The protocol and opcode that a table word names: its low 9 bits are the decode key, the bits above are 0. -/
def tableKey (nbits w : Nat) : Option (Proto × Byte) :=
  let k := w % 2 ^ nbits
  if k < 512 then some (if k < 256 then .p1 else .p2, BitVec.ofNat 8 k) else none

/-- The frame that a table word stands for: ID 0, the smallest payload of R51 with every byte 0, the right trailer
(log 16). -/
def tableFrame (p : Proto) (opc : Byte) : List Byte :=
  encodeRaw p 0 opc (List.replicate (minPayload p opc) 0)

/-- The instruction the decoder reads from a table word's frame. -/
def decodeTableWord (nbits w : Nat) : Option Instr :=
  match tableKey nbits w with
  | none => none
  | some (p, opc) =>
    match decodeFrame 65532 (tableFrame p opc) with
    | .ok d => some d.instr
    | .error _ => none

end Sys2Proof
end

