-- ==== Sys2Proof/Machine/RegTables.lean ====
section
/-! DEFINITION. The default register tables REGTAB (44_dispatch.md R84): the informative AX and X-series tables of
93_implementation_defined.md I6 and I7. PRESUMED: the spec marks both as general knowledge of the servo family; only
AX address 3 ("ID", width 1) is in its source (log 6). MX, XL-series and BOARD have no table (91_not_in_source.md N3). -/

namespace Sys2Proof.Machine

/-- A table row: address, name, width in bytes. -/
def regRow (fam : Family) (addr : Half) (name : String) (width : Width) : RegEntry := ⟨fam, addr, ⟨name, width⟩⟩

/-- The AX-series table (I6), addresses 0 to 25. -/
def axTableLow : List RegEntry :=
  [ regRow .ax 0 "Model Number" .w2,
    regRow .ax 2 "Firmware Version" .w1,
    regRow .ax 3 "ID" .w1,
    regRow .ax 4 "Baud Rate" .w1,
    regRow .ax 5 "Return Delay Time" .w1,
    regRow .ax 6 "CW Angle Limit" .w2,
    regRow .ax 8 "CCW Angle Limit" .w2,
    regRow .ax 11 "Temperature Limit" .w1,
    regRow .ax 12 "Min Voltage Limit" .w1,
    regRow .ax 13 "Max Voltage Limit" .w1,
    regRow .ax 14 "Max Torque" .w2,
    regRow .ax 16 "Status Return Level" .w1,
    regRow .ax 17 "Alarm LED" .w1,
    regRow .ax 18 "Shutdown" .w1,
    regRow .ax 24 "Torque Enable" .w1,
    regRow .ax 25 "LED" .w1 ]

/-- The AX-series table (I6), addresses 26 to 48. -/
def axTableHigh : List RegEntry :=
  [ regRow .ax 26 "CW Compliance Margin" .w1,
    regRow .ax 27 "CCW Compliance Margin" .w1,
    regRow .ax 28 "CW Compliance Slope" .w1,
    regRow .ax 29 "CCW Compliance Slope" .w1,
    regRow .ax 30 "Goal Position" .w2,
    regRow .ax 32 "Moving Speed" .w2,
    regRow .ax 34 "Torque Limit" .w2,
    regRow .ax 36 "Present Position" .w2,
    regRow .ax 38 "Present Speed" .w2,
    regRow .ax 40 "Present Load" .w2,
    regRow .ax 42 "Present Voltage" .w1,
    regRow .ax 43 "Present Temperature" .w1,
    regRow .ax 44 "Registered" .w1,
    regRow .ax 46 "Moving" .w1,
    regRow .ax 47 "Lock" .w1,
    regRow .ax 48 "Punch" .w2 ]

/-- The X-series table (I7), addresses 0 to 70. -/
def xTableLow : List RegEntry :=
  [ regRow .x 0 "Model Number" .w2,
    regRow .x 2 "Model Information" .w4,
    regRow .x 6 "Firmware Version" .w1,
    regRow .x 7 "ID" .w1,
    regRow .x 8 "Baud Rate" .w1,
    regRow .x 9 "Return Delay Time" .w1,
    regRow .x 10 "Drive Mode" .w1,
    regRow .x 11 "Operating Mode" .w1,
    regRow .x 12 "Secondary ID" .w1,
    regRow .x 13 "Protocol Type" .w1,
    regRow .x 20 "Homing Offset" .w4,
    regRow .x 24 "Moving Threshold" .w4,
    regRow .x 31 "Temperature Limit" .w1,
    regRow .x 32 "Max Voltage Limit" .w2,
    regRow .x 34 "Min Voltage Limit" .w2,
    regRow .x 36 "PWM Limit" .w2,
    regRow .x 38 "Current Limit" .w2,
    regRow .x 44 "Velocity Limit" .w4,
    regRow .x 48 "Max Position Limit" .w4,
    regRow .x 52 "Min Position Limit" .w4,
    regRow .x 63 "Shutdown" .w1,
    regRow .x 64 "Torque Enable" .w1,
    regRow .x 65 "LED" .w1,
    regRow .x 68 "Status Return Level" .w1,
    regRow .x 69 "Registered Instruction" .w1,
    regRow .x 70 "Hardware Error Status" .w1 ]

/-- The X-series table (I7), addresses 76 to 146. -/
def xTableHigh : List RegEntry :=
  [ regRow .x 76 "Velocity I Gain" .w2,
    regRow .x 78 "Velocity P Gain" .w2,
    regRow .x 80 "Position D Gain" .w2,
    regRow .x 82 "Position I Gain" .w2,
    regRow .x 84 "Position P Gain" .w2,
    regRow .x 88 "Feedforward 2nd Gain" .w2,
    regRow .x 90 "Feedforward 1st Gain" .w2,
    regRow .x 98 "Bus Watchdog" .w1,
    regRow .x 100 "Goal PWM" .w2,
    regRow .x 102 "Goal Current" .w2,
    regRow .x 104 "Goal Velocity" .w4,
    regRow .x 108 "Profile Acceleration" .w4,
    regRow .x 112 "Profile Velocity" .w4,
    regRow .x 116 "Goal Position" .w4,
    regRow .x 120 "Realtime Tick" .w2,
    regRow .x 122 "Moving" .w1,
    regRow .x 123 "Moving Status" .w1,
    regRow .x 124 "Present PWM" .w2,
    regRow .x 126 "Present Current" .w2,
    regRow .x 128 "Present Velocity" .w4,
    regRow .x 132 "Present Position" .w4,
    regRow .x 136 "Velocity Trajectory" .w4,
    regRow .x 140 "Position Trajectory" .w4,
    regRow .x 144 "Present Input Voltage" .w2,
    regRow .x 146 "Present Temperature" .w1 ]

/-- The default REGTAB (R11, decision D34). -/
def defaultRegtab : List RegEntry := axTableLow ++ axTableHigh ++ xTableLow ++ xTableHigh

end Sys2Proof.Machine
end

