-- ==== Sys2Proof/Machine/ConfigReg.lean ====
section
/-! DEFINITION. The configuration register's encodings (10_state.md R25), its validity (R26), the families it names
(44_dispatch.md R83), and the defaults of the configuration and of the parameters (00_scope.md R11). -/

namespace Sys2Proof.Machine

/-- Some field of `cfg` holds an invalid encoding (R25, R26). `pairs` has none. -/
def cfgInvalid (c : Cfg) : Bool :=
  c.base == 3 || decide (4 ≤ c.fam1.toNat) || c.fam2 == 3 || c.board == 3

/-- The family that `fam1` names (R25, R83). An invalid encoding names none; no step reads it (log 9). -/
def familyOfFam1 (f : BitVec 3) : Family :=
  if f = 0 then .ax else if f = 1 then .mx else if f = 2 then .xl else .x

/-- The family that `fam2` names (R25, R83). An invalid encoding names none; no step reads it (log 9). -/
def familyOfFam2 (f : BitVec 2) : Family :=
  if f = 0 then .x else if f = 1 then .mx else .xl

/-- The default configuration (R25). -/
def defaultCfg : Cfg := { base := 0, fam1 := 0, fam2 := 0, board := 0, pairs := 0 }

/-- The default parameters (R11; TIME_W and REGTAB are open: logs 4 and 6). -/
def defaultParams : Params :=
  { timeW := 64, kTimeout := 3, durMode := .current, payloadCap := 65532, regtab := defaultRegtab, tabsel := [] }

end Sys2Proof.Machine
end

