-- ==== Sys2Proof/Machine/Record.lean ====
section
/-! DEFINITION. The output record (44_dispatch.md R86 to R88) and the error taxonomy (60_exceptions.md R108 to R112). -/

namespace Sys2Proof.Machine

/-- The error classes (R108). -/
inductive ErrorClass where
  | configError | abort | truncated | checksumMismatch
  deriving DecidableEq, Repr

/-- The class codes of R108. -/
def ErrorClass.code : ErrorClass → Nat
  | .configError => 1
  | .abort => 2
  | .truncated => 3
  | .checksumMismatch => 4

/-- The causes of a silent frame discard (R110). No output and no register records which one happened. -/
inductive AbortCause where
  | timeout | badPreamble | shortLength | overflow
  deriving DecidableEq, Repr

/-- The cause codes of R110. -/
def AbortCause.code : AbortCause → Nat
  | .timeout => 1
  | .badPreamble => 2
  | .shortLength => 3
  | .overflow => 4

/-- The truncation causes of an ERROR record (R111). -/
inductive TruncCause where
  | read | write | syncwHdr | syncwChunk | bulkrEntry | bulkwHdr | bulkwData
  deriving DecidableEq, Repr

/-- The cause codes of R111, the one numeric code that leaves the block, in the `err` field of an ERROR record (R108). -/
def TruncCause.code : TruncCause → Nat
  | .read => 1
  | .write => 2
  | .syncwHdr => 3
  | .syncwChunk => 4
  | .bulkrEntry => 5
  | .bulkwHdr => 6
  | .bulkwData => 7

/-- The record kinds (R87): one for each mnemonic, and ERROR. -/
inductive Kind where
  | response | ping | read | write | regWrite | action | factoryReset | reboot | clear | backup
  | syncRead | syncWrite | bulkRead | bulkWrite | unknown | error
  deriving DecidableEq, Repr

/-- What `RegLUT` returns (R84): `RegDesc` of R88. -/
structure RegDesc where
  known : Bool
  name : Option String
  width : Width
  deriving DecidableEq, Repr

/-- An item of the register walk (R85): `RegItem` of R88. -/
structure RegItem where
  addr : Half
  known : Bool
  name : Option String
  width : Width
  taken : Nat
  value : Value
  part : Bool
  deriving DecidableEq, Repr

/-- A chunk of a Sync Write (R88, R101). -/
structure Chunk where
  sid : Byte
  items : List RegItem
  deriving DecidableEq, Repr

/-- An entry of a Bulk Read (R88, R103). -/
structure BulkReadItem where
  sid : Byte
  addr : Half
  count : Half
  reg : RegDesc
  deriving DecidableEq, Repr

/-- An entry of a Bulk Write (R88, R102). -/
structure BulkWriteItem where
  sid : Byte
  addr : Half
  count : Half
  items : List RegItem
  deriving DecidableEq, Repr

/-- The status of a Response (46_bulk_and_response.md R106). -/
inductive RespStatus where
  | p1Err (bits : Byte)
  | p2Status (alert : Bool) (code : BitVec 7)
  deriving DecidableEq, Repr

/-- How a Response was correlated (R88, R105). -/
inductive Corr where
  | none | read | ping | bulk | bulkMiss
  deriving DecidableEq, Repr

/-- The body of a RESPONSE record (R88). -/
structure RespBody where
  status : Option RespStatus
  corr : Corr
  model : Option Half
  fw : Option Byte
  base : Option Half
  reqCount : Option Half
  items : List RegItem
  data : List Byte
  deriving DecidableEq, Repr

/-- The body variants (R88). -/
inductive Body where
  | empty
  | read (addr count : Half) (reg : RegDesc)
  | write (addr : Half) (reg : RegDesc) (items : List RegItem)
  | raw (bytes : List Byte)
  | syncWrite (addr count : Half) (chunks : List Chunk)
  | bulkRead (entries : List BulkReadItem)
  | bulkWrite (entries : List BulkWriteItem)
  | response (r : RespBody)
  | error (err : TruncCause) (op : Mnemonic)
  deriving DecidableEq, Repr

/-- The output record `F` (R86). -/
structure Record where
  kind : Kind
  op : Mnemonic
  tStart : Time
  tEnd : Time
  proto : Proto
  id : Byte
  opc : Byte
  chkOk : Bool
  chkExp : Half
  chkAct : Half
  payload : List Byte
  body : Body
  deriving DecidableEq, Repr

end Sys2Proof.Machine
end

