-- ==== Sys2Proof/Machine/State.lean ====
section
/-! DEFINITION. The state of DXL-CORE (10_state.md R18 to R30), its faults and refusals, and session reset
(70_reset_and_hazards.md R121). -/

namespace Sys2Proof.Machine

/-- The framing states of `st` (R20). -/
inductive FsmState where
  | idle | pre2 | rid | rlen1
  | p1Inst | p1Data | p1Chk
  | p2Id | p2Len1 | p2Len2 | p2Inst | p2Data | p2Crc1 | p2Crc2
  deriving DecidableEq, Repr

/-- A byte event `b = (b.v, b.ts, b.te)` (00_scope.md R8). -/
structure ByteEvent where
  v : Byte
  ts : Time
  te : Time
  deriving DecidableEq, Repr

/-- An entry of the Bulk Correlation map (R23). -/
structure BulkEntry where
  v : Bool
  reg : Half
  cnt : Half
  deriving DecidableEq, Repr

/-- The value of a map entry that no Bulk Read has written (R29). -/
def BulkEntry.empty : BulkEntry := { v := false, reg := 0, cnt := 0 }

/-- The payload buffer: (index, byte) pairs in one canonical form, indices strictly rising and no entry equal to what
an unlisted index reads as, 0 (R29). -/
abbrev Memory := List Host.Cell

/-- The bulk map: (servo ID, entry) pairs in the same canonical form, an unlisted servo reading as
`BulkEntry.empty`. -/
abbrev BulkMap := List (Nat × BulkEntry)

structure State where
  /-- the instance's parameters (00_scope.md R11), never written -/
  par : Params
  /-- the configuration register, never written during a session (R25) -/
  cfg : Cfg
  /-- the status bit `cfg_err` (R26) -/
  cfgErr : Bool
  /-- the framing state, the block's program counter (R20, R21) -/
  st : FsmState
  /-- the protocol, `none` while unresolved (R19) -/
  proto : Option Proto
  /-- the byte read in ReadID (R19) -/
  hid : Byte
  /-- the target servo ID (R19) -/
  id : Byte
  /-- the declared length (R19) -/
  len : Half
  /-- the instruction opcode (R19) -/
  opc : Byte
  /-- the payload buffer (R19, 20_memory.md R31) -/
  buf : Memory
  /-- the number of payload bytes held (R19) -/
  bcnt : Half
  /-- the running Protocol 1 sum (R19) -/
  sum : Byte
  /-- the running Protocol 2 CRC (R19) -/
  crc : Half
  /-- the received low CRC byte (R19) -/
  rxLo : Byte
  /-- the start time of the first preamble byte (R19) -/
  tStart : Time
  /-- the start time of the second preamble byte (R19) -/
  tPre2 : Time
  /-- the start time of the previous byte event (R23) -/
  tLastS : Time
  /-- the end time of the previous byte event (R23) -/
  tLastE : Time
  /-- the opcode of the last emitted request frame (R23, 44_dispatch.md R82) -/
  lastOpc : Byte
  /-- `lastOpc` holds a value (R23) -/
  lastOpcV : Bool
  /-- the register address of the last well-formed Read (R23) -/
  lastReg : Half
  /-- the count of the last well-formed Read (R23) -/
  lastCnt : Half
  /-- `lastReg` and `lastCnt` hold a value (R23) -/
  lastRegV : Bool
  /-- the Bulk Correlation map (R23) -/
  bulk : BulkMap
  /-- the model's own: the byte events the host has yet to present, in order (00_scope.md R8; log 1) -/
  input : List ByteEvent
  /-- the model's own: the byte event on the input port in the running step (R55; log 1) -/
  cur : ByteEvent
  /-- the model's own: the record the last byte step presented, if any (00_scope.md R9; log 2) -/
  out : Option Record
  deriving DecidableEq, Repr

/-- Why the machine stops. -/
inductive Fault where
  /-- 60_exceptions.md R109: a step is asked for while `cfg_err` is 1. Raised by `step`; the spec's own fault, safe. -/
  | configError
  /-- An access to the payload buffer at an index it does not have (20_memory.md R31). Raised by `bufAppend` and
  `fetchPayload`; safe, and no reachable state raises it (log 12). -/
  | bufferRange
  deriving DecidableEq, Repr

/-- Why an instruction has no meaning. -/
inductive Refusal where
  /-- The instruction of this mnemonic is not modelled. Raised by no arm: every row has its meaning. Safe. -/
  | notModelled (mnemonic : String)
  deriving DecidableEq, Repr

/-- The outcomes of this machine. -/
abbrev Outcome := Host.Outcome State Fault Refusal

/-- `session_reset(c)` (70_reset_and_hazards.md R121) of an instance with parameters `p`: every register at its value
of R29. The ports are empty. -/
def State.sessionReset (p : Params) (c : Cfg) : State :=
  { par := p, cfg := c, cfgErr := cfgInvalid c,
    st := .idle, proto := none, hid := 0, id := 0, len := 0, opc := 0, buf := [], bcnt := 0, sum := 0, crc := 0,
    rxLo := 0, tStart := 0, tPre2 := 0,
    tLastS := 0, tLastE := 0, lastOpc := 0, lastOpcV := false, lastReg := 0, lastCnt := 0, lastRegV := false,
    bulk := [],
    input := [], cur := { v := 0, ts := 0, te := 0 }, out := none }

/-- The machine right after a session reset with the default configuration and parameters (R25, R11, R121). -/
def State.reset : State := State.sessionReset defaultParams defaultCfg

end Sys2Proof.Machine
end

