-- ==== Sys2Proof/Machine/Flags.lean ====
section
/-! DEFINITION. The block has no condition flags (10_state.md R24). Its one computed verdict is the check annotation
of a record: `chk_exp`, `chk_act`, `chk_ok` (41_p1_decoder.md R63, 42_p2_decoder.md R75, 44_dispatch.md R86). -/

namespace Sys2Proof.Machine

/-- The computed check value at the trailer: the checksum, zero-extended (R63), or the CRC (R75). -/
def chkExp (p : Proto) (s : State) : Half :=
  match p with
  | .p1 => zext16 (checksumOf s.sum)
  | .p2 => s.crc

/-- The received check value at the trailer: the trailer byte, zero-extended (R63), or the low CRC byte held and the
high one on the port (R75). -/
def chkAct (p : Proto) (s : State) : Half :=
  match p with
  | .p1 => zext16 s.cur.v
  | .p2 => le16 s.rxLo s.cur.v

/-- The verdict: 1 if the computed value equals the received one (R86). -/
def chkOk (p : Proto) (s : State) : Bool := chkExp p s == chkAct p s

end Sys2Proof.Machine
end

