-- ==== Sys2Proof/Machine/Memory.lean ====
section
/-! DEFINITION. Sparse storage in one canonical form, and the two memories of the block made of it: the payload
buffer and the bulk map (20_memory.md R31, R35). -/

namespace Sys2Proof.Machine

/-- What a key reads as: its entry, or the value `d` of an unlisted key. -/
def sparseRead {α : Type} (d : α) (m : List (Nat × α)) (k : Nat) : α :=
  match m with
  | [] => d
  | (k', v) :: t => if k' = k then v else sparseRead d t k

/-- The entry for a key as a list: none where the value is what an unlisted key reads as. -/
def sparseCell {α : Type} [DecidableEq α] (d : α) (k : Nat) (v : α) : List (Nat × α) := if v = d then [] else [(k, v)]

/-- Write one key, keeping keys strictly rising and listing no entry equal to `d`. -/
def sparseWrite {α : Type} [DecidableEq α] (d : α) (m : List (Nat × α)) (k : Nat) (v : α) : List (Nat × α) :=
  match m with
  | [] => sparseCell d k v
  | (k', v') :: t =>
    if k < k' then sparseCell d k v ++ (k', v') :: t
    else if k = k' then sparseCell d k v ++ t
    else (k', v') :: sparseWrite d t k v

/-- The canonical form: keys strictly rising, no entry equal to `d`. -/
def sparseWf {α : Type} [DecidableEq α] (d : α) : List (Nat × α) → Bool
  | [] => true
  | (k, v) :: t => decide (v ≠ d) && t.all (fun e => decide (k < e.1)) && sparseWf d t

/-- `Buf(i)` (00_scope.md R15). An index that nothing has written reads as 0 (10_state.md R29). -/
def Memory.read (m : Memory) (i : Nat) : Byte := sparseRead 0 m i

/-- Write one byte of the buffer. -/
def Memory.write (m : Memory) (i : Nat) (b : Byte) : Memory := sparseWrite 0 m i b

/-- The buffer's canonical form holds. -/
def Memory.wf (m : Memory) : Bool := sparseWf 0 m

/-- `MapRead(id)` (R15). -/
def BulkMap.read (m : BulkMap) (id : Byte) : BulkEntry := sparseRead BulkEntry.empty m id.toNat

/-- `MapWrite(id, e)` (R15): overwrite, no merge (46_bulk_and_response.md R103, R104). -/
def BulkMap.write (m : BulkMap) (id : Byte) (e : BulkEntry) : BulkMap := sparseWrite BulkEntry.empty m id.toNat e

/-- The map's canonical form holds, and every listed key is a servo ID (20_memory.md R38). -/
def BulkMap.wf (m : BulkMap) : Bool := sparseWf BulkEntry.empty m && m.all (fun e => decide (e.1 < Config.nIds))

end Sys2Proof.Machine
end

