-- ==== Sys2Proof/Machine/RegLut.lean ====
section
/-! DEFINITION. Table selection, the register-table lookup and the register walk (44_dispatch.md R83, R84, R85). -/

namespace Sys2Proof.Machine

/-- A TABSEL exception applies to exactly its own arguments (R83). -/
def ruleApplies (p : Proto) (c : Cfg) (id : Byte) (r : TabRule) : Bool :=
  r.proto == p && r.fam1 == c.fam1 && r.fam2 == c.fam2 && r.board == c.board && r.id == id

/-- `TABSEL(P, cfg, id)` (R83): the instance's exceptions, and else the default, the family configured for the
protocol, whatever the board hint and the ID. -/
def tabSel (par : Params) (p : Proto) (c : Cfg) (id : Byte) : Family :=
  match par.tabsel.find? (ruleApplies p c id) with
  | some r => r.fam
  | none =>
    match p with
    | .p1 => familyOfFam1 c.fam1
    | .p2 => familyOfFam2 c.fam2

/-- The family whose table decodes a frame of the protocol in this state: selected once for the frame's own ID (R81,
R83). -/
def frameFamily (p : Proto) (s : State) : Family := tabSel s.par p s.cfg s.id

/-- `a in REGTAB[fam]` (R84). -/
def regFind (par : Params) (fam : Family) (a : Half) : Option RegEntry :=
  par.regtab.find? (fun e => e.fam == fam && e.addr == a)

/-- `RegLUT(fam, a)` (R84). An address outside the table is valid: no name, UNKNOWN_REG_WIDTH (R39). -/
def regLut (par : Params) (fam : Family) (a : Half) : RegDesc :=
  match regFind par fam a with
  | some e => { known := true, name := some e.desc.name, width := e.desc.width }
  | none => { known := false, name := none, width := Config.unknownRegWidth }

/-- `t`: the bytes taken for a register with `left` bytes left (R85). -/
def takenBytes (par : Params) (fam : Family) (a : Half) (left : Nat) : Nat := min (regLut par fam a).width.bytes left

/-- One item of the walk: the register at `a`, with the first bytes of `d` (R85). -/
def walkItem (par : Params) (fam : Family) (a : Half) (d : List Byte) : RegItem :=
  let r := regLut par fam a
  let t := takenBytes par fam a d.length
  { addr := a, known := r.known, name := r.name, width := r.width, taken := t,
    value := BitVec.ofNat 32 (leNat (d.take t)), part := decide (t < r.width.bytes) }

/-- The walk's loop, with `fuel` at least the number of bytes left. -/
def walkLoop (par : Params) (fam : Family) (fuel : Nat) (a : Half) (d : List Byte) : List RegItem :=
  match fuel, d with
  | _, [] => []
  | 0, _ => []
  | n + 1, d =>
    let t := takenBytes par fam a d.length
    walkItem par fam a d :: walkLoop par fam n (a + BitVec.ofNat 16 t) (d.drop t)

/-- `Walk(fam, a0, d)` (R85). Every item takes a byte at least, so as much fuel as there are bytes is enough. -/
def walk (par : Params) (fam : Family) (a : Half) (d : List Byte) : List RegItem := walkLoop par fam d.length a d

end Sys2Proof.Machine
end

