-- ==== Sys2Proof/Machine/Ops.lean ====
section
/-! DEFINITION. The operations over the state that the rules share: frame reset and the silent abort (10_state.md R30,
60_exceptions.md R110), the output port, the payload buffer, the correlation registers, and the dispatch of a
completed frame (44_dispatch.md R81, R82) with its ERROR record (60_exceptions.md R111). -/

namespace Sys2Proof.Machine

/-! ### Outcomes -/

/-- Apply a change of state to a next state; a stop stays a stop. -/
def mapNext (f : State → State) (o : Outcome) : Outcome :=
  match o with
  | .next s => .next (f s)
  | .fault r => .fault r
  | .refused r => .refused r

/-! ### Registers -/

/-- The 4-bit code of a framing state (R20). No output shows it, and codes 14 and 15 name no state. -/
def FsmState.code : FsmState → BitVec 4
  | .idle => 0
  | .pre2 => 1
  | .rid => 2
  | .rlen1 => 3
  | .p1Inst => 4
  | .p1Data => 5
  | .p1Chk => 6
  | .p2Id => 7
  | .p2Len1 => 8
  | .p2Len2 => 9
  | .p2Inst => 10
  | .p2Data => 11
  | .p2Crc1 => 12
  | .p2Crc2 => 13

/-- The 2-bit register `proto`: 0 while unresolved, else the protocol's number (R19, R24). -/
def protoCode : Option Proto → BitVec 2
  | none => 0
  | some .p1 => 1
  | some .p2 => 2

/-- `R.st <- S` (R14). -/
def State.goto (s : State) (f : FsmState) : State := { s with st := f }

/-- `frame_reset()` (R30): the framing registers at their frame-reset values, everything else kept. -/
def State.frameReset (s : State) : State :=
  { s with st := .idle, proto := none, hid := 0, id := 0, len := 0, opc := 0, bcnt := 0, sum := 0, crc := 0,
           rxLo := 0, tStart := 0, tPre2 := 0 }

/-- `abort(cause)` (00_scope.md R16, 60_exceptions.md R110): the frame reset, with no output. The cause is a name only.
This is the block's one way of taking an exception that discards a frame; nothing is saved and there is no return
operation (R115, R116): the block goes on from IDLE. -/
def State.abort (s : State) (_cause : AbortCause) : State := s.frameReset

/-- `emit(F)` (R16): present a record on the output port. -/
def State.emit (s : State) (f : Record) : State := { s with out := some f }

/-- The start of a byte step: the event is on the input port, and the output port presents nothing yet (R9, R55). -/
def State.present (s : State) (b : ByteEvent) (rest : List ByteEvent) : State :=
  { s with cur := b, input := rest, out := none }

/-- The end of a byte step: the event becomes "lastByte" (R55). -/
def State.setLastByte (s : State) (b : ByteEvent) : State := { s with tLastS := b.ts, tLastE := b.te }

/-- `R.last_opc <- opc; R.last_opc_v <- 1` (R82). -/
def State.setLastOpc (s : State) (opc : Byte) : State := { s with lastOpc := opc, lastOpcV := true }

/-- `R.last_reg <- a; R.last_cnt <- c; R.last_reg_v <- 1` (45_requests.md R95). -/
def State.setLastRead (s : State) (a c : Half) : State := { s with lastReg := a, lastCnt := c, lastRegV := true }

/-- The bulk map after a Bulk Read's writes (46_bulk_and_response.md R103). -/
def State.setBulk (s : State) (m : BulkMap) : State := { s with bulk := m }

/-! ### The payload buffer -/

/-- `BufAppend(v)` (00_scope.md R15). Index PAYLOAD_CAP and above do not exist (20_memory.md R31; log 12). -/
def bufAppend (s : State) (v : Byte) : Outcome :=
  if s.bcnt.toNat < s.par.payloadCap then
    .next { s with buf := s.buf.write s.bcnt.toNat v, bcnt := s.bcnt + 1 }
  else .fault .bufferRange

/-- `buf[0 : n]` (R15). -/
def bufBytes (m : Memory) (n : Nat) : List Byte := (List.range n).map m.read

/-- The payload of the frame in the buffer, `buf[0 : R.bcnt]` (44_dispatch.md R81). -/
def payloadOf (s : State) : List Byte := bufBytes s.buf s.bcnt.toNat

/-- The payload, where every index of it exists (log 12). -/
def fetchPayload (s : State) : Except Fault (List Byte) :=
  if s.bcnt.toNat ≤ s.par.payloadCap then .ok (payloadOf s) else .error .bufferRange

/-! ### Dispatch -/

/-- What a handler returns (45_requests.md): a kind and a body, or a truncation. -/
inductive HandlerResult where
  | ok (kind : Kind) (body : Body)
  | truncated (cause : TruncCause)
  deriving DecidableEq, Repr

/-- The kind of the record (R81, R111). -/
def HandlerResult.kindOf : HandlerResult → Kind
  | .ok k _ => k
  | .truncated _ => .error

/-- The body of the record: for a truncation the cause and the handler's mnemonic (R81, R111). -/
def HandlerResult.bodyOf (mn : Mnemonic) : HandlerResult → Body
  | .ok _ b => b
  | .truncated c => .error c mn

/-- The output record of a completed frame (R81, R86). -/
def frameRecord (p : Proto) (mn : Mnemonic) (opc : Byte) (pay : List Byte) (res : HandlerResult) (s : State) : Record :=
  { kind := res.kindOf, op := mn, tStart := s.tStart, tEnd := s.cur.te, proto := p, id := s.id, opc := opc,
    chkOk := chkOk p s, chkExp := chkExp p s, chkAct := chkAct p s, payload := pay, body := res.bodyOf mn }

/-- Every frame but a Response leaves its opcode in `last_opc` (R50, R81, R82). -/
def noteOpcode (mn : Mnemonic) (opc : Byte) (s : State) : State :=
  if mn = .response then s else s.setLastOpc opc

/-- The end of a frame, from the handler's result and the state that holds the handler's own writes: build the record,
note the opcode, present the record, reset the framing registers (R81, R82; 41_p1_decoder.md R63;
42_p2_decoder.md R75). -/
def dispatchFrame (p : Proto) (mn : Mnemonic) (opc : Byte) (pay : List Byte) (res : HandlerResult) (s : State) :
    Outcome :=
  .next (((noteOpcode mn opc s).emit (frameRecord p mn opc pay res s)).frameReset)

end Sys2Proof.Machine
end

