-- ==== Sys2Proof/Machine/Operands.lean ====
section
/-! DEFINITION. The operand forms (30_encoding.md R51): how each handler reads its payload. A form answers `none`, or a
truncation cause, where the payload is too short for its structure (60_exceptions.md R111). -/

namespace Sys2Proof.Machine

/-- Address (or count) field of `AW` (`CW`) bytes at the head of the payload, with the bytes after it (R51): one byte,
zero-extended, in Protocol 1; two bytes, little-endian, in Protocol 2. -/
def fieldOperand (p : Proto) (pay : List Byte) : Option (Half × List Byte) :=
  match p, pay with
  | .p1, b :: rest => some (zext16 b, rest)
  | .p2, lo :: hi :: rest => some (le16 lo hi, rest)
  | _, _ => none

/-- READ and the SYNC_WRITE header: address, count, and the bytes after them (R51, 45_requests.md R95, R101). -/
def addrCountOperands (p : Proto) (pay : List Byte) : Option (Half × Half × List Byte) :=
  match fieldOperand p pay with
  | none => none
  | some (a, rest) =>
    match fieldOperand p rest with
    | none => none
    | some (c, rest') => some (a, c, rest')

/-- WRITE and REG_WRITE: address, and the value bytes (R51, R96). -/
def addrDataOperands (p : Proto) (pay : List Byte) : Option (Half × List Byte) := fieldOperand p pay

/-- The chunks of a SYNC_WRITE: a 1-byte servo ID and `c` value bytes, until the payload ends (R101), with `fuel` at
least the number of bytes left. -/
def syncChunksLoop (par : Params) (fam : Family) (a : Half) (c fuel : Nat) (pay : List Byte) :
    Except TruncCause (List Chunk) :=
  match fuel, pay with
  | _, [] => .ok []
  | 0, _ => .ok []
  | n + 1, sid :: rest =>
    if rest.length < c then .error .syncwChunk
    else
      match syncChunksLoop par fam a c n (rest.drop c) with
      | .error e => .error e
      | .ok chunks => .ok ({ sid, items := walk par fam a (rest.take c) } :: chunks)

/-- The chunks of a SYNC_WRITE after its header (R101). -/
def syncChunks (par : Params) (fam : Family) (a c : Half) (pay : List Byte) : Except TruncCause (List Chunk) :=
  syncChunksLoop par fam a c.toNat pay.length pay

/-- The entries of a BULK_WRITE: a 5-byte header and as many data bytes as its count says (R102), with `fuel` at least
the number of bytes left. -/
def bulkWriteLoop (par : Params) (fam : Family) (fuel : Nat) (pay : List Byte) :
    Except TruncCause (List BulkWriteItem) :=
  match fuel, pay with
  | _, [] => .ok []
  | 0, _ => .ok []
  | n + 1, sid :: a0 :: a1 :: c0 :: c1 :: rest =>
    let a := le16 a0 a1
    let c := le16 c0 c1
    if c.toNat > rest.length then .error .bulkwData
    else
      match bulkWriteLoop par fam n (rest.drop c.toNat) with
      | .error e => .error e
      | .ok entries => .ok ({ sid, addr := a, count := c, items := walk par fam a (rest.take c.toNat) } :: entries)
  | _ + 1, _ => .error .bulkwHdr

/-- The entries of a BULK_WRITE payload (R102). -/
def bulkWriteEntries (par : Params) (fam : Family) (pay : List Byte) : Except TruncCause (List BulkWriteItem) :=
  bulkWriteLoop par fam pay.length pay

/-- The entries of a BULK_READ payload: 5 bytes each; a tail of 1 to 4 bytes is a truncation (R103). -/
def bulkReadEntries (par : Params) (fam : Family) : List Byte → Except TruncCause (List BulkReadItem)
  | [] => .ok []
  | sid :: a0 :: a1 :: c0 :: c1 :: rest =>
    match bulkReadEntries par fam rest with
    | .error e => .error e
    | .ok entries =>
      .ok ({ sid, addr := le16 a0 a1, count := le16 c0 c1, reg := regLut par fam (le16 a0 a1) } :: entries)
  | _ => .error .bulkrEntry

/-- The map writes of a BULK_READ: one for each complete entry, in payload order; those made before a truncation are
kept (R103, decision D29). -/
def bulkReadWrites (m : BulkMap) : List Byte → BulkMap
  | sid :: a0 :: a1 :: c0 :: c1 :: rest =>
    bulkReadWrites (m.write sid { v := true, reg := le16 a0 a1, cnt := le16 c0 c1 }) rest
  | _ => m

/-- The status byte of a RESPONSE (46_bulk_and_response.md R105, R106): Protocol 1 passes the byte, Protocol 2 splits
it into alert (bit 7) and code (bits 6..0). -/
def respStatus (p : Proto) (b : Byte) : RespStatus :=
  match p with
  | .p1 => .p1Err b
  | .p2 => .p2Status (b.getLsbD 7) (b.setWidth 7)

end Sys2Proof.Machine
end

