-- ==== Sys2Proof/Machine/BulkRead.lean ====
section
/-! DEFINITION. Bulk Read and its writes of the correlation map (46_bulk_and_response.md R103, R104). -/

namespace Sys2Proof.Machine

/-- `H_BULK_READ`'s answer (R103). -/
def bulkReadResult (p : Proto) (pay : List Byte) (s : State) : HandlerResult :=
  match bulkReadEntries s.par (frameFamily p s) pay with
  | .error e => .truncated e
  | .ok entries => .ok .bulkRead (.bulkRead entries)

/-- `H_BULK_READ` (R103): the map writes happen whether the payload is truncated or not. -/
def bulkReadFrame (p : Proto) (opc : Byte) (pay : List Byte) (s : State) : Outcome :=
  dispatchFrame p .bulkRead opc pay (bulkReadResult p pay s) (s.setBulk (bulkReadWrites s.bulk pay))

/-- P1.BULK_READ (R103). -/
def execP1BulkRead (pay : List Byte) (s : State) : Outcome := bulkReadFrame .p1 0x92 pay s

/-- P2.BULK_READ (R103). -/
def execP2BulkRead (pay : List Byte) (s : State) : Outcome := bulkReadFrame .p2 0x92 pay s

end Sys2Proof.Machine
end

