-- ==== Sys2Proof/Machine/MultiWrite.lean ====
section
/-! DEFINITION. Multi-servo writes (45_requests.md R101, R102): Sync Write, Bulk Write. -/

namespace Sys2Proof.Machine

/-- `H_SYNC_WRITE` (R101). -/
def syncWriteResult (p : Proto) (pay : List Byte) (s : State) : HandlerResult :=
  match addrCountOperands p pay with
  | none => .truncated .syncwHdr
  | some (a, c, rest) =>
    match syncChunks s.par (frameFamily p s) a c rest with
    | .error e => .truncated e
    | .ok chunks => .ok .syncWrite (.syncWrite a c chunks)

/-- P1.SYNC_WRITE (R101). -/
def execP1SyncWrite (pay : List Byte) (s : State) : Outcome :=
  dispatchFrame .p1 .syncWrite 0x83 pay (syncWriteResult .p1 pay s) s

/-- P2.SYNC_WRITE (R101). -/
def execP2SyncWrite (pay : List Byte) (s : State) : Outcome :=
  dispatchFrame .p2 .syncWrite 0x83 pay (syncWriteResult .p2 pay s) s

/-- `H_BULK_WRITE` (R102): the same entry format in both protocols. -/
def bulkWriteResult (p : Proto) (pay : List Byte) (s : State) : HandlerResult :=
  match bulkWriteEntries s.par (frameFamily p s) pay with
  | .error e => .truncated e
  | .ok entries => .ok .bulkWrite (.bulkWrite entries)

/-- P1.BULK_WRITE (R102). -/
def execP1BulkWrite (pay : List Byte) (s : State) : Outcome :=
  dispatchFrame .p1 .bulkWrite 0x93 pay (bulkWriteResult .p1 pay s) s

/-- P2.BULK_WRITE (R102). -/
def execP2BulkWrite (pay : List Byte) (s : State) : Outcome :=
  dispatchFrame .p2 .bulkWrite 0x93 pay (bulkWriteResult .p2 pay s) s

end Sys2Proof.Machine
end

