-- ==== Sys2Proof/Machine/PlainRequests.lean ====
section
/-! DEFINITION. Requests without operands (45_requests.md R91 to R94): Ping, Action, Factory Reset, Reboot. Any payload
is kept in the record's `payload` and not decoded; the block itself is not affected (decision D31). -/

namespace Sys2Proof.Machine

/-- P1.PING (R91). -/
def execP1Ping (pay : List Byte) (s : State) : Outcome := dispatchFrame .p1 .ping 0x01 pay (.ok .ping .empty) s

/-- P2.PING (R91). -/
def execP2Ping (pay : List Byte) (s : State) : Outcome := dispatchFrame .p2 .ping 0x01 pay (.ok .ping .empty) s

/-- P1.ACTION (R92). -/
def execP1Action (pay : List Byte) (s : State) : Outcome := dispatchFrame .p1 .action 0x05 pay (.ok .action .empty) s

/-- P2.ACTION (R92). -/
def execP2Action (pay : List Byte) (s : State) : Outcome := dispatchFrame .p2 .action 0x05 pay (.ok .action .empty) s

/-- P1.FACTORY_RESET (R93): it does not reset DXL-CORE. -/
def execP1FactoryReset (pay : List Byte) (s : State) : Outcome :=
  dispatchFrame .p1 .factoryReset 0x06 pay (.ok .factoryReset .empty) s

/-- P2.FACTORY_RESET (R93): it does not reset DXL-CORE. -/
def execP2FactoryReset (pay : List Byte) (s : State) : Outcome :=
  dispatchFrame .p2 .factoryReset 0x06 pay (.ok .factoryReset .empty) s

/-- P1.REBOOT (R94). -/
def execP1Reboot (pay : List Byte) (s : State) : Outcome := dispatchFrame .p1 .reboot 0x08 pay (.ok .reboot .empty) s

/-- P2.REBOOT (R94). -/
def execP2Reboot (pay : List Byte) (s : State) : Outcome := dispatchFrame .p2 .reboot 0x08 pay (.ok .reboot .empty) s

end Sys2Proof.Machine
end

