-- ==== Sys2Proof/Machine/RawFrames.lean ====
section
/-! DEFINITION. Frames whose payload is passed through as raw bytes: Clear, Backup, Sync Read, Protocol 2 only
(45_requests.md R98 to R100), and every opcode without a handler of its own (44_dispatch.md R89). -/

namespace Sys2Proof.Machine

/-- P2.CLEAR (R98). -/
def execP2Clear (pay : List Byte) (s : State) : Outcome := dispatchFrame .p2 .clear 0x10 pay (.ok .clear (.raw pay)) s

/-- P2.BACKUP (R99). -/
def execP2Backup (pay : List Byte) (s : State) : Outcome :=
  dispatchFrame .p2 .backup 0x20 pay (.ok .backup (.raw pay)) s

/-- P2.SYNC_READ (R100): its register and ID list are not decoded, and no correlation register is written. -/
def execP2SyncRead (pay : List Byte) (s : State) : Outcome :=
  dispatchFrame .p2 .syncRead 0x82 pay (.ok .syncRead (.raw pay)) s

/-- P1.UNKNOWN (R89). -/
def execP1Unknown (opc : Byte) (pay : List Byte) (s : State) : Outcome :=
  dispatchFrame .p1 .unknown opc pay (.ok .unknown (.raw pay)) s

/-- P2.UNKNOWN (R89). -/
def execP2Unknown (opc : Byte) (pay : List Byte) (s : State) : Outcome :=
  dispatchFrame .p2 .unknown opc pay (.ok .unknown (.raw pay)) s

end Sys2Proof.Machine
end

