-- ==== Sys2Proof/Machine/ReadWrite.lean ====
section
/-! DEFINITION. Register read and write requests (45_requests.md R95 to R97): Read, Write, Reg Write. -/

namespace Sys2Proof.Machine

/-- `H_READ` (R95): a well-formed Read records its register and count; a truncated one does not. -/
def readFrame (p : Proto) (opc : Byte) (pay : List Byte) (s : State) : Outcome :=
  match addrCountOperands p pay with
  | none => dispatchFrame p .read opc pay (.truncated .read) s
  | some (a, c, _) =>
    dispatchFrame p .read opc pay (.ok .read (.read a c (regLut s.par (frameFamily p s) a))) (s.setLastRead a c)

/-- P1.READ (R95). -/
def execP1Read (pay : List Byte) (s : State) : Outcome := readFrame .p1 0x02 pay s

/-- P2.READ (R95). -/
def execP2Read (pay : List Byte) (s : State) : Outcome := readFrame .p2 0x02 pay s

/-- `WriteBody(k, P, fam, pay)` (R96): the value bytes are walked from the address. -/
def writeResult (kind : Kind) (p : Proto) (pay : List Byte) (s : State) : HandlerResult :=
  match addrDataOperands p pay with
  | none => .truncated .write
  | some (a, d) =>
    .ok kind (.write a (regLut s.par (frameFamily p s) a) (walk s.par (frameFamily p s) a d))

/-- P1.WRITE (R96). -/
def execP1Write (pay : List Byte) (s : State) : Outcome :=
  dispatchFrame .p1 .write 0x03 pay (writeResult .write .p1 pay s) s

/-- P2.WRITE (R96). -/
def execP2Write (pay : List Byte) (s : State) : Outcome :=
  dispatchFrame .p2 .write 0x03 pay (writeResult .write .p2 pay s) s

/-- P1.REG_WRITE (R97). -/
def execP1RegWrite (pay : List Byte) (s : State) : Outcome :=
  dispatchFrame .p1 .regWrite 0x04 pay (writeResult .regWrite .p1 pay s) s

/-- P2.REG_WRITE (R97). -/
def execP2RegWrite (pay : List Byte) (s : State) : Outcome :=
  dispatchFrame .p2 .regWrite 0x04 pay (writeResult .regWrite .p2 pay s) s

end Sys2Proof.Machine
end

