-- ==== Sys2Proof/Machine/Response.lean ====
section
/-! DEFINITION. The Response decoder (46_bulk_and_response.md R105, R106). It writes no register of its own. -/

namespace Sys2Proof.Machine

/-- A Response body before anything is decoded (R105). -/
def RespBody.blank : RespBody :=
  { status := none, corr := .none, model := none, fw := none, base := none, reqCount := none, items := [], data := [] }

/-- The last request was the opcode `o` (R105). -/
def lastWas (o : Byte) (s : State) : Bool := s.lastOpcV && s.lastOpc == o

/-- The data of a Response read as registers from `base` (R105). -/
def correlated (corr : Corr) (base count : Half) (p : Proto) (b : RespBody) (s : State) : RespBody :=
  { b with corr := corr, base := some base, reqCount := some count, items := walk s.par (frameFamily p s) base b.data }

/-- `H_RESPONSE` (R105): the Ping-reply form, the Bulk Read form keyed by the Response's own ID, the generic form, or
raw data. -/
def responseBody (p : Proto) (pay : List Byte) (s : State) : RespBody :=
  match pay with
  | [] => RespBody.blank
  | st :: data =>
    let b := { RespBody.blank with status := some (respStatus p st), data := data }
    if lastWas 0x01 s && decide (4 ≤ pay.length) then
      { b with corr := .ping, model := some (le16 (data.getD 0 0) (data.getD 1 0)), fw := some (data.getD 2 0) }
    else if lastWas 0x92 s then
      let e := s.bulk.read s.id
      if e.v then correlated .bulk e.reg e.cnt p b s else { b with corr := .bulkMiss }
    else if s.lastRegV then correlated .read s.lastReg s.lastCnt p b s
    else b

/-- P1.RESPONSE (R105). -/
def execP1Response (pay : List Byte) (s : State) : Outcome :=
  dispatchFrame .p1 .response 0x00 pay (.ok .response (.response (responseBody .p1 pay s))) s

/-- P2.RESPONSE (R105). -/
def execP2Response (pay : List Byte) (s : State) : Outcome :=
  dispatchFrame .p2 .response 0x55 pay (.ok .response (.response (responseBody .p2 pay s))) s

end Sys2Proof.Machine
end

