-- ==== Sys2Proof/Machine/Dispatch.lean ====
section
/-! DEFINITION. The dispatch: one arm for each row of spec/opcode_table.json (44_dispatch.md R81, 30_encoding.md R49).
An instruction runs in the step that consumes its frame's last trailer byte: the state it is given has that byte event
on the input port. -/

namespace Sys2Proof.Machine

def exec (i : Instr) (s : State) : Host.Outcome State Fault Refusal :=
  match i with
  | .p1Response pay => Sys2Proof.Machine.execP1Response pay s
  | .p1Ping pay => Sys2Proof.Machine.execP1Ping pay s
  | .p1Read pay => Sys2Proof.Machine.execP1Read pay s
  | .p1Write pay => Sys2Proof.Machine.execP1Write pay s
  | .p1RegWrite pay => Sys2Proof.Machine.execP1RegWrite pay s
  | .p1Action pay => Sys2Proof.Machine.execP1Action pay s
  | .p1FactoryReset pay => Sys2Proof.Machine.execP1FactoryReset pay s
  | .p1Reboot pay => Sys2Proof.Machine.execP1Reboot pay s
  | .p1SyncWrite pay => Sys2Proof.Machine.execP1SyncWrite pay s
  | .p1BulkRead pay => Sys2Proof.Machine.execP1BulkRead pay s
  | .p1BulkWrite pay => Sys2Proof.Machine.execP1BulkWrite pay s
  | .p1Unknown opc pay => Sys2Proof.Machine.execP1Unknown opc pay s
  | .p2Response pay => Sys2Proof.Machine.execP2Response pay s
  | .p2Ping pay => Sys2Proof.Machine.execP2Ping pay s
  | .p2Read pay => Sys2Proof.Machine.execP2Read pay s
  | .p2Write pay => Sys2Proof.Machine.execP2Write pay s
  | .p2RegWrite pay => Sys2Proof.Machine.execP2RegWrite pay s
  | .p2Action pay => Sys2Proof.Machine.execP2Action pay s
  | .p2FactoryReset pay => Sys2Proof.Machine.execP2FactoryReset pay s
  | .p2Reboot pay => Sys2Proof.Machine.execP2Reboot pay s
  | .p2Clear pay => Sys2Proof.Machine.execP2Clear pay s
  | .p2Backup pay => Sys2Proof.Machine.execP2Backup pay s
  | .p2SyncRead pay => Sys2Proof.Machine.execP2SyncRead pay s
  | .p2SyncWrite pay => Sys2Proof.Machine.execP2SyncWrite pay s
  | .p2BulkRead pay => Sys2Proof.Machine.execP2BulkRead pay s
  | .p2BulkWrite pay => Sys2Proof.Machine.execP2BulkWrite pay s
  | .p2Unknown opc pay => Sys2Proof.Machine.execP2Unknown opc pay s

end Sys2Proof.Machine
end

