-- ==== Sys2Proof/Machine/FrameSync.lean ====
section
/-! DEFINITION. The Frame Synchronizer's states (40_frame_sync.md R56 to R59). Each handler consumes the byte event on
the input port. -/

namespace Sys2Proof.Machine

/-- `Idle(b)`: seek the first preamble byte (R56). -/
def idleByte (s : State) : State :=
  if s.cur.v = 0xFF then { s with tStart := s.cur.ts, st := .pre2 } else s

/-- `Pre2(b)`: seek the second preamble byte (R57). -/
def pre2Byte (s : State) : State :=
  if s.cur.v = 0xFF then { s with tPre2 := s.cur.ts, st := .rid } else s.abort .badPreamble

/-- `ReadID(b)`: slide the preamble window, or take the ID and start both accumulators (R58). -/
def ridByte (s : State) : State :=
  if s.cur.v = 0xFF then { s with tStart := s.tPre2, tPre2 := s.cur.ts }
  else { s with hid := s.cur.v, sum := s.cur.v, crc := crcUpd crcSeed s.cur.v, st := .rlen1 }

/-- `ReadLength1(b)`: resolve the protocol (R59). -/
def rlen1Byte (s : State) : State :=
  if s.hid = 0xFD ∧ s.cur.v = 0x00 then
    { s with proto := some .p2, crc := crcUpd s.crc s.cur.v, st := .p2Id }
  else
    let t := { s with proto := some .p1, id := s.hid, len := zext16 s.cur.v, sum := s.sum + s.cur.v }
    if s.cur.v.toNat < 2 then t.abort .shortLength
    else if s.cur.v.toNat - 2 > s.par.payloadCap then t.abort .overflow
    else t.goto .p1Inst

end Sys2Proof.Machine
end

