-- ==== Sys2Proof/Machine/P1Decoder.lean ====
section
/-! DEFINITION. The Protocol 1 Frame Decoder's states before its trailer (41_p1_decoder.md R61, R62). -/

namespace Sys2Proof.Machine

/-- `P1Inst(b)`: capture the opcode (R61). -/
def p1InstByte (s : State) : State :=
  { s with opc := s.cur.v, sum := s.sum + s.cur.v, st := if s.len.toNat = 2 then .p1Chk else .p1Data }

/-- What `P1Data(b)` does beside the append (R62): accumulate, and leave for the trailer when the new count is
`len - 2`. `s` is the state after the append. -/
def p1DataNext (s : State) : State :=
  { s with sum := s.sum + s.cur.v, st := if s.bcnt.toNat + 2 = s.len.toNat then .p1Chk else .p1Data }

/-- `P1Data(b)`: append a payload byte (R62). -/
def p1DataByte (s : State) : Outcome := mapNext p1DataNext (bufAppend s s.cur.v)

end Sys2Proof.Machine
end

