-- ==== Sys2Proof/Machine/P2Decoder.lean ====
section
/-! DEFINITION. The Protocol 2 Frame Decoder's states before its last trailer byte (42_p2_decoder.md R69 to R74). -/

namespace Sys2Proof.Machine

/-- `P2Id(b)`: the real target ID (R69). -/
def p2IdByte (s : State) : State := { s with id := s.cur.v, crc := crcUpd s.crc s.cur.v, st := .p2Len1 }

/-- `P2Len1(b)`: the low length byte (R70). -/
def p2Len1Byte (s : State) : State := { s with len := zext16 s.cur.v, crc := crcUpd s.crc s.cur.v, st := .p2Len2 }

/-- `P2Len2(b)`: the high length byte, and the length check (R71). -/
def p2Len2Byte (s : State) : State :=
  let l := le16 (loByte s.len) s.cur.v
  let t := { s with len := l, crc := crcUpd s.crc s.cur.v }
  if l.toNat < 3 then t.abort .shortLength
  else if l.toNat - 3 > s.par.payloadCap then t.abort .overflow
  else t.goto .p2Inst

/-- `P2Inst(b)`: capture the opcode (R72). -/
def p2InstByte (s : State) : State :=
  { s with opc := s.cur.v, crc := crcUpd s.crc s.cur.v, st := if s.len.toNat = 3 then .p2Crc1 else .p2Data }

/-- What `P2Data(b)` does beside the append (R73). `s` is the state after the append. -/
def p2DataNext (s : State) : State :=
  { s with crc := crcUpd s.crc s.cur.v, st := if s.bcnt.toNat + 3 = s.len.toNat then .p2Crc1 else .p2Data }

/-- `P2Data(b)`: append a payload byte (R73). -/
def p2DataByte (s : State) : Outcome := mapNext p2DataNext (bufAppend s s.cur.v)

/-- `P2Crc1(b)`: the low CRC byte; the CRC is not updated with it (R74). -/
def p2Crc1Byte (s : State) : State := { s with rxLo := s.cur.v, st := .p2Crc2 }

end Sys2Proof.Machine
end

