-- ==== Sys2Proof/Machine/Timeout.lean ====
section
/-! DEFINITION. The Timeout Monitor (43_timeout_monitor.md R76 to R78). -/

namespace Sys2Proof.Machine

/-- `gap`: from the end of the previous byte event to the start of the arriving one, an exact integer (R76). -/
def byteGap (s : State) : Int := (s.cur.ts : Int) - (s.tLastE : Int)

/-- `dur`: the duration of the arriving byte, or of the previous one, an exact integer (R76, decision D3). -/
def byteDuration (s : State) : Int :=
  match s.par.durMode with
  | .current => (s.cur.te : Int) - (s.cur.ts : Int)
  | .previous => (s.tLastE : Int) - (s.tLastS : Int)

/-- `Timeout(b)` for the event on the input port (R76): the gap is larger than K byte durations. A negative gap never
times out (R76 corner cases, R123, decision D5), which the first condition says where the duration is negative too;
for events in the host's order it is no condition at all (log 8). -/
def timedOut (s : State) : Bool :=
  decide (0 ≤ byteGap s) && decide (byteGap s > (s.par.kTimeout : Int) * byteDuration s)

/-- The monitor before the state handler (R55, R77, R78): in every state but IDLE a timeout aborts the frame, and the
same byte is then handled in IDLE. -/
def monitor (s : State) : State :=
  if s.st ≠ .idle ∧ timedOut s = true then s.abort .timeout else s

end Sys2Proof.Machine
end

