-- ==== Sys2Proof/Machine/ByteStep.lean ====
section
/-! DEFINITION. The byte step (40_frame_sync.md R55): the timeout monitor, the handler of the framing state, and at a
trailer byte the instruction that the received frame decodes to (41_p1_decoder.md R63, 42_p2_decoder.md R75). -/

namespace Sys2Proof.Machine

/-- The instruction in the frame buffer: the opcode register and the payload, decoded for the protocol whose trailer
is being read (R49, R63, R75, R81). -/
def decodeAt (p : Proto) (s : State) : Except Fault Instr :=
  match fetchPayload s with
  | .ok pay => .ok (decodeOp p s.opc pay)
  | .error f => .error f

/-- `P1Chk(b)` and `P2Crc2(b)`: run the received frame's instruction (R63, R75). -/
def trailerByte (p : Proto) (s : State) : Outcome :=
  match decodeAt p s with
  | .ok i => exec i s
  | .error f => .fault f

/-- The handler of the framing state (R55). -/
def handleByte (s : State) : Outcome :=
  match s.st with
  | .idle => .next (idleByte s)
  | .pre2 => .next (pre2Byte s)
  | .rid => .next (ridByte s)
  | .rlen1 => .next (rlen1Byte s)
  | .p1Inst => .next (p1InstByte s)
  | .p1Data => p1DataByte s
  | .p1Chk => trailerByte .p1 s
  | .p2Id => .next (p2IdByte s)
  | .p2Len1 => .next (p2Len1Byte s)
  | .p2Len2 => .next (p2Len2Byte s)
  | .p2Inst => .next (p2InstByte s)
  | .p2Data => p2DataByte s
  | .p2Crc1 => .next (p2Crc1Byte s)
  | .p2Crc2 => trailerByte .p2 s

/-- `step(b)` of R55 for the event `b`, with `rest` still to come. -/
def byteStep (b : ByteEvent) (rest : List ByteEvent) (s : State) : Outcome :=
  mapNext (fun t => t.setLastByte b) (handleByte (monitor (s.present b rest)))

/-- One step: nothing under `cfg_err` (R109); else one byte event, where the host has one to present (R6, R55). With
none pending the block is idle and keeps all its state (60_exceptions.md R120; log 1). -/
def blockStep (s : State) : Outcome :=
  if s.cfgErr then .fault .configError
  else
    match s.input with
    | [] => .next s
    | b :: rest => byteStep b rest s

/-- Store bytes in the buffer from index `i` on. -/
def bufStore (m : Memory) (i : Nat) : List Byte → Memory
  | [] => m
  | b :: t => bufStore (m.write i b) (i + 1) t

/-- The state in which the next byte event is the last trailer byte of a whole frame of the protocol, the opcode and
the payload, to ID 0: its bytes in the framing registers and the buffer as the byte steps leave them, its right trailer
byte the one event to come, at time 0 right after a previous byte at time 0 (log 3). -/
def atTrailer (p : Proto) (opc : Byte) (pay : List Byte) (s : State) : State :=
  let framed := { s with id := 0, opc := opc, buf := bufStore s.buf 0 pay, bcnt := BitVec.ofNat 16 pay.length,
                         tLastS := 0, tLastE := 0 }
  match p with
  | .p1 =>
    { framed with st := .p1Chk, proto := some .p1, hid := 0, len := BitVec.ofNat 16 (pay.length + 2),
                  sum := sumBytes 0 (p1Body 0 opc pay),
                  input := [{ v := checksum (p1Body 0 opc pay), ts := 0, te := 0 }] }
  | .p2 =>
    { framed with st := .p2Crc2, proto := some .p2, hid := 0xFD, len := BitVec.ofNat 16 (pay.length + 3),
                  crc := crcOf (p2Body 0 opc pay), rxLo := loByte (crcOf (p2Body 0 opc pay)),
                  input := [{ v := hiByte (crcOf (p2Body 0 opc pay)), ts := 0, te := 0 }] }

end Sys2Proof.Machine
end

