-- ==== Sys2Proof/Machine/Step.lean ====
section
/-! DEFINITION. The step of the machine, and where it takes its next instruction from. -/

namespace Sys2Proof.Machine

/-- One step of DXL-CORE (40_frame_sync.md R55). -/
def step (s : State) : Host.Outcome State Fault Refusal := blockStep s

/-- `s` with the frame of a table word received up to its last trailer byte, so that the very next step runs it
(log 3, log 16). A word that is no decode key changes nothing. -/
def State.withFetchWord (s : State) (nbits w : Nat) : State :=
  match tableKey nbits w with
  | none => s
  | some (p, opc) => atTrailer p opc (List.replicate (minPayload p opc) 0) s

end Sys2Proof.Machine
end

