-- ==== Sys2Proof/Safety.lean ====
section
/-! DEFINITION. The terms that statements about DXL-CORE use: what a completed frame leaves, which registers a step
keeps, when a byte is late, the invariant of the framing machine, and a safe run. They are written from the spec's
rules, not from the model's operations, wherever the two could differ. -/

namespace Sys2Proof.Machine

/-! ### What stays -/

/-- Every framing register holds its frame-reset value (10_state.md R30). -/
def FramingReset (s : State) : Prop :=
  s.st = .idle ∧ s.proto = none ∧ s.hid = 0 ∧ s.id = 0 ∧ s.len = 0 ∧ s.opc = 0 ∧ s.bcnt = 0 ∧ s.sum = 0 ∧ s.crc = 0 ∧
    s.rxLo = 0 ∧ s.tStart = 0 ∧ s.tPre2 = 0

/-- Parameters, configuration and `cfg_err` are as before (R25, R26, 70_reset_and_hazards.md R122). -/
def FixedKept (s t : State) : Prop := t.par = s.par ∧ t.cfg = s.cfg ∧ t.cfgErr = s.cfgErr

/-- Every byte of the payload buffer reads as before. -/
def BufferKept (s t : State) : Prop := ∀ a : Nat, t.buf.read a = s.buf.read a

/-- Every entry of the bulk map reads as before. -/
def BulkKept (s t : State) : Prop := ∀ id : Byte, t.bulk.read id = s.bulk.read id

/-- The last request's opcode is as before. -/
def LastOpcKept (s t : State) : Prop := t.lastOpc = s.lastOpc ∧ t.lastOpcV = s.lastOpcV

/-- The last request's opcode is `o` (44_dispatch.md R82). -/
def LastOpcIs (o : Byte) (t : State) : Prop := t.lastOpc = o ∧ t.lastOpcV = true

/-- The last Read's register and count are as before. -/
def LastReadKept (s t : State) : Prop := t.lastReg = s.lastReg ∧ t.lastCnt = s.lastCnt ∧ t.lastRegV = s.lastRegV

/-- The last Read's register and count are these (45_requests.md R95). -/
def LastReadIs (a c : Half) (t : State) : Prop := t.lastReg = a ∧ t.lastCnt = c ∧ t.lastRegV = true

/-- The frame of every instruction: framing registers reset; parameters, configuration, buffer, previous byte event,
input still to come and the byte on the port as before. -/
def FrameEnded (s t : State) : Prop :=
  FramingReset t ∧ FixedKept s t ∧ BufferKept s t ∧ t.tLastS = s.tLastS ∧ t.tLastE = s.tLastE ∧ t.input = s.input ∧
    t.cur = s.cur

/-- The header, payload and check fields of the record of a frame (44_dispatch.md R86), from the state at the
trailer: Protocol 1 checks the complemented sum against the trailer byte, Protocol 2 the CRC against the two trailer
bytes, low byte first. -/
def RecordOf (p : Proto) (op : Mnemonic) (opc : Byte) (pay : List Byte) (s : State) (r : Record) : Prop :=
  r.op = op ∧ r.tStart = s.tStart ∧ r.tEnd = s.cur.te ∧ r.proto = p ∧ r.id = s.id ∧ r.opc = opc ∧ r.payload = pay ∧
    (match p with
      | .p1 => r.chkExp.toNat = 255 - s.sum.toNat ∧ r.chkAct.toNat = s.cur.v.toNat
      | .p2 => r.chkExp = s.crc ∧ r.chkAct.toNat = s.rxLo.toNat + 256 * s.cur.v.toNat) ∧
    (r.chkOk = true ↔ r.chkExp = r.chkAct)

/-- `i` runs from `s` to a next state in which the frame has ended, and the record presented is that of the frame,
with the given kind and body. Nothing is said here of the correlation registers. -/
def Emits (i : Instr) (s t : State) (kind : Kind) (body : Body) : Prop :=
  exec i s = .next t ∧ FrameEnded s t ∧
    ∃ r, t.out = some r ∧ RecordOf i.proto i.mnemonic i.opcode i.payload s r ∧ r.kind = kind ∧ r.body = body

/-- `Emits`, and no correlation register changes but the last opcode, which becomes the instruction's (R82). -/
def EmitsRequest (i : Instr) (s t : State) (kind : Kind) (body : Body) : Prop :=
  Emits i s t kind body ∧ LastOpcIs i.opcode t ∧ LastReadKept s t ∧ BulkKept s t

/-- A TABSEL exception applies to a frame of the protocol in this state: its arguments are the frame's protocol, the
configuration and the frame's ID (44_dispatch.md R83; log 9). -/
def TabApplies (p : Proto) (s : State) (r : TabRule) : Prop :=
  r.proto = p ∧ r.fam1 = s.cfg.fam1 ∧ r.fam2 = s.cfg.fam2 ∧ r.board = s.cfg.board ∧ r.id = s.id

/-! ### Bytes -/

/-- The state after a byte event that no handler changed anything for: the event has left the input, it is the
previous byte now, and nothing is presented (40_frame_sync.md R55). -/
def afterByte (s : State) (b : ByteEvent) (rest : List ByteEvent) : State :=
  { s with input := rest, cur := b, out := none, tLastS := b.ts, tLastE := b.te }

/-- The next byte event is `b`, and the block accepts it (R55, R109). -/
def Presents (s : State) (b : ByteEvent) (rest : List ByteEvent) : Prop := s.cfgErr = false ∧ s.input = b :: rest

/-- A state with its framing registers at the frame-reset values of R30 and everything else as it was. -/
def discarded (s : State) : State :=
  { s with st := .idle, proto := none, hid := 0, id := 0, len := 0, opc := 0, bcnt := 0, sum := 0, crc := 0,
           rxLo := 0, tStart := 0, tPre2 := 0 }

/-- The event `b` comes too late after one that lasted from `ts` to `te` (43_timeout_monitor.md R76): it starts at its
end or after it, and the gap is larger than K byte durations. -/
def LateAfter (par : Params) (ts te : Time) (b : ByteEvent) : Prop :=
  te ≤ b.ts ∧ (b.ts : Int) - (te : Int) > (par.kTimeout : Int) *
    (match par.durMode with
      | .current => (b.te : Int) - (b.ts : Int)
      | .previous => (te : Int) - (ts : Int))

/-- `b` is late in this state. -/
def Late (s : State) (b : ByteEvent) : Prop := LateAfter s.par s.tLastS s.tLastE b

/-- No byte event of a stream comes late after the one before it. -/
def NoGaps (par : Params) : List ByteEvent → Prop
  | a :: b :: rest => ¬ LateAfter par a.ts a.te b ∧ NoGaps par (b :: rest)
  | _ => True

/-- The CRC update of one byte by polynomial division (42_p2_decoder.md R66): one shift, with 0x8005 added when the
top bit leaves. -/
def crcShift (c : Half) : Half := if c.getLsbD 15 then (c <<< 1) ^^^ 0x8005#16 else c <<< 1

/-- Eight shifts of the CRC register after the byte was added to its high byte. -/
def crcBitwise (crc : Half) (b : Byte) : Half := crcShift^[8] (crc ^^^ (b.setWidth 16 <<< 8))

/-! ### The invariant -/

/-- Length, count and opcode of a frame of which no length byte has come. -/
def NoFrameYet (s : State) : Prop := s.id = 0 ∧ s.len = 0 ∧ s.opc = 0 ∧ s.bcnt = 0 ∧ s.rxLo = 0

/-- Before the ID byte the accumulators and the ID register are at their reset values as well. -/
def NoIdYet (s : State) : Prop := NoFrameYet s ∧ s.proto = none ∧ s.hid = 0 ∧ s.sum = 0 ∧ s.crc = 0

/-- A Protocol 1 frame in progress: its ID, and a length that leaves room for opcode and trailer and fits the buffer
(30_encoding.md R44, 40_frame_sync.md R59). -/
def InP1 (s : State) : Prop :=
  s.proto = some .p1 ∧ s.id = s.hid ∧ s.hid ≠ 0xFF ∧ s.rxLo = 0 ∧ 2 ≤ s.len.toNat ∧ s.len.toNat ≤ 255 ∧
    s.len.toNat - 2 ≤ s.par.payloadCap

/-- A Protocol 2 frame in progress (30_encoding.md R45, R59). -/
def InP2 (s : State) : Prop := s.proto = some .p2 ∧ s.hid = 0xFD

/-- A Protocol 2 frame in progress whose length is known and accepted (42_p2_decoder.md R71). -/
def InP2Sized (s : State) : Prop := InP2 s ∧ 3 ≤ s.len.toNat ∧ s.len.toNat - 3 ≤ s.par.payloadCap

/-- The bytes that a Protocol 1 frame has summed so far, up to its payload (41_p1_decoder.md R60). -/
def p1Summed (s : State) : List Byte := s.id :: loByte s.len :: s.opc :: payloadOf s

/-- The bytes that a Protocol 2 frame has put through the CRC so far, up to its payload (42_p2_decoder.md R64). -/
def p2Crced (s : State) : List Byte :=
  0xFF :: 0xFF :: 0xFD :: 0x00 :: s.id :: loByte s.len :: hiByte s.len :: s.opc :: payloadOf s

/-- What holds of the framing registers in each framing state (10_state.md R19 to R22, R30, and the state rules). -/
def FramingInv (s : State) : Prop :=
  match s.st with
  | .idle => FramingReset s
  | .pre2 => NoIdYet s ∧ s.tPre2 = 0
  | .rid => NoIdYet s
  | .rlen1 => NoFrameYet s ∧ s.proto = none ∧ s.hid ≠ 0xFF ∧ s.sum = s.hid ∧ s.crc = crcOf [0xFF, 0xFF, s.hid]
  | .p1Inst => InP1 s ∧ s.bcnt = 0 ∧ s.opc = 0 ∧ s.sum = sumBytes 0 [s.id, loByte s.len]
  | .p1Data => InP1 s ∧ s.bcnt.toNat + 2 < s.len.toNat ∧ s.sum = sumBytes 0 (p1Summed s)
  | .p1Chk => InP1 s ∧ s.bcnt.toNat + 2 = s.len.toNat ∧ s.sum = sumBytes 0 (p1Summed s)
  | .p2Id => InP2 s ∧ NoFrameYet s ∧ s.crc = crcOf [0xFF, 0xFF, 0xFD, 0x00]
  | .p2Len1 =>
    InP2 s ∧ s.len = 0 ∧ s.opc = 0 ∧ s.bcnt = 0 ∧ s.rxLo = 0 ∧ s.crc = crcOf [0xFF, 0xFF, 0xFD, 0x00, s.id]
  | .p2Len2 =>
    InP2 s ∧ s.len.toNat ≤ 255 ∧ s.opc = 0 ∧ s.bcnt = 0 ∧ s.rxLo = 0 ∧
      s.crc = crcOf [0xFF, 0xFF, 0xFD, 0x00, s.id, loByte s.len]
  | .p2Inst =>
    InP2Sized s ∧ s.opc = 0 ∧ s.bcnt = 0 ∧ s.rxLo = 0 ∧
      s.crc = crcOf [0xFF, 0xFF, 0xFD, 0x00, s.id, loByte s.len, hiByte s.len]
  | .p2Data => InP2Sized s ∧ s.rxLo = 0 ∧ s.bcnt.toNat + 3 < s.len.toNat ∧ s.crc = crcOf (p2Crced s)
  | .p2Crc1 => InP2Sized s ∧ s.rxLo = 0 ∧ s.bcnt.toNat + 3 = s.len.toNat ∧ s.crc = crcOf (p2Crced s)
  | .p2Crc2 => InP2Sized s ∧ s.bcnt.toNat + 3 = s.len.toNat ∧ s.crc = crcOf (p2Crced s)

/-- What holds of the two memories: canonical forms, buffer indices below PAYLOAD_CAP, and every listed map entry
valid (20_memory.md R31, 46_bulk_and_response.md R103). -/
def MemoryInv (s : State) : Prop :=
  s.buf.wf = true ∧ (∀ c ∈ s.buf, c.1 < s.par.payloadCap) ∧ s.bulk.wf = true ∧ (∀ e ∈ s.bulk, e.2.v = true)

/-- The invariant of the machine: `cfg_err` says whether `cfg` is invalid (R26), the memories are sound, and the
framing registers agree with the framing state. -/
def Inv (s : State) : Prop := s.cfgErr = cfgInvalid s.cfg ∧ MemoryInv s ∧ FramingInv s

/-- A timestamp fits in TIME_W bits (00_scope.md R8, R11). -/
def Fits (par : Params) (t : Time) : Prop := t < 2 ^ par.timeW

/-- Both timestamps of an event fit. -/
def EventFits (par : Params) (b : ByteEvent) : Prop := Fits par b.ts ∧ Fits par b.te

/-- Every timestamp register, every event and the record presented fit in TIME_W bits (R11, R19, R23, R86). -/
def TimesFit (s : State) : Prop :=
  Fits s.par s.tStart ∧ Fits s.par s.tPre2 ∧ Fits s.par s.tLastS ∧ Fits s.par s.tLastE ∧ EventFits s.par s.cur ∧
    (∀ b ∈ s.input, EventFits s.par b) ∧ (∀ r ∈ s.out, Fits s.par r.tStart ∧ Fits s.par r.tEnd)

/-! ### Records -/

/-- The kind that a handler of this mnemonic produces (44_dispatch.md R87). -/
def kindOfMnemonic : Mnemonic → Kind
  | .response => .response
  | .ping => .ping
  | .read => .read
  | .write => .write
  | .regWrite => .regWrite
  | .action => .action
  | .factoryReset => .factoryReset
  | .reboot => .reboot
  | .clear => .clear
  | .backup => .backup
  | .syncRead => .syncRead
  | .syncWrite => .syncWrite
  | .bulkRead => .bulkRead
  | .bulkWrite => .bulkWrite
  | .unknown => .unknown

/-- The truncation causes that a handler of this mnemonic can raise (60_exceptions.md R111). -/
def causesOf : Mnemonic → List TruncCause
  | .read => [.read]
  | .write | .regWrite => [.write]
  | .syncWrite => [.syncwHdr, .syncwChunk]
  | .bulkRead => [.bulkrEntry]
  | .bulkWrite => [.bulkwHdr, .bulkwData]
  | _ => []

/-- The body's variant is the one R88 selects by the record's kind. -/
def bodyMatches (r : Record) : Prop :=
  match r.kind, r.body with
  | .ping, .empty | .action, .empty | .factoryReset, .empty | .reboot, .empty => True
  | .read, .read _ _ _ => True
  | .write, .write _ _ _ | .regWrite, .write _ _ _ => True
  | .clear, .raw b | .backup, .raw b | .syncRead, .raw b | .unknown, .raw b => b = r.payload
  | .syncWrite, .syncWrite _ _ _ => True
  | .bulkRead, .bulkRead _ => True
  | .bulkWrite, .bulkWrite _ => True
  | .response, .response _ => True
  | .error, .error c op => op = r.op ∧ c ∈ causesOf op
  | _, _ => False

/-- A record as R86 to R88 and R111 describe it: kind ERROR or the kind of its handler, and the body of its kind. -/
def RecordShape (r : Record) : Prop := (r.kind = .error ∨ r.kind = kindOfMnemonic r.op) ∧ bodyMatches r

/-- The bytes of a Bulk Read entry, or of a Bulk Write entry's header: servo ID, address and count, low bytes first
(30_encoding.md R51). -/
def entryBytes (e : Byte × Half × Half) : List Byte := [e.1, loByte e.2.1, hiByte e.2.1, loByte e.2.2, hiByte e.2.2]

/-- One of two instructions, by protocol. -/
def byProto (p : Proto) (i1 i2 : Instr) : Instr :=
  match p with
  | .p1 => i1
  | .p2 => i2

/-- The status of a Response from its first payload byte (R106): in Protocol 1 the byte, in Protocol 2 the alert flag
(the top bit) and the code (the value of the other seven bits). -/
def statusOf (p : Proto) (b : Byte) : RespStatus :=
  match p with
  | .p1 => .p1Err b
  | .p2 => .p2Status (decide (128 ≤ b.toNat)) (BitVec.ofNat 7 (b.toNat % 128))

/-- `EmitsResponse`: the record of a Response, which leaves every correlation register as it was (R105, R82). -/
def EmitsResponse (p : Proto) (pay : List Byte) (s : State) (body : RespBody) : Prop :=
  ∃ t, Emits (byProto p (.p1Response pay) (.p2Response pay)) s t .response (.response body) ∧ LastOpcKept s t ∧
    LastReadKept s t ∧ BulkKept s t

/-! ### Runs -/

/-- `k` steps answer a next state. -/
def RunsTo (k : Nat) (s t : State) : Prop := Sys2Proof.core.run k s = .next t

/-- A safe run: however many steps, the machine never stops with a fault or a refusal. -/
def SafeRun (s : State) : Prop := ∀ k, ∃ t, RunsTo k s t

end Sys2Proof.Machine
end

