-- ==== Sys2Proof/Certificates/Slice0/Obligations.lean ====
section
/-! DEFINITION. The statements about DXL-CORE, each a proposition for the provers. -/

open Sys2Proof Sys2Proof.Machine

/-! ### Session reset and the session fault -/

/-- 10_state.md R29, 70_reset_and_hazards.md R121: what a session reset leaves in every register of the spec, for
every configuration and all parameters. -/
def Obligations.SessionResetLeavesTheSpecValues : Prop :=
  ∀ (p : Params) (c : Cfg), ∃ s, State.sessionReset p c = s ∧ s.par = p ∧ s.cfg = c ∧ FramingReset s ∧
    (∀ a : Nat, s.buf.read a = 0) ∧ s.tLastS = 0 ∧ s.tLastE = 0 ∧ s.lastOpc = 0 ∧ s.lastOpcV = false ∧
    s.lastReg = 0 ∧ s.lastCnt = 0 ∧ s.lastRegV = false ∧
    (∀ id : Byte, s.bulk.read id = { v := false, reg := 0, cnt := 0 }) ∧
    (s.cfgErr = true ↔ c.base = 3 ∨ 4 ≤ c.fam1.toNat ∨ c.fam2 = 3 ∨ c.board = 3)

/-- 60_exceptions.md R109: while `cfg_err` is 1 the block makes no step: the machine stops, whatever its state, and
no state is written. That a stop of the machine is how the model says so is log 11's reading. -/
def Obligations.ConfigErrorStopsEveryStep : Prop :=
  ∀ s : State, s.cfgErr = true → step s = .fault .configError

/-- 60_exceptions.md R120: the block is idle between byte events and keeps all state. That a step with no event
pending is such an idle step is the model's convention (log 1). -/
def Obligations.NoEventKeepsAllState : Prop :=
  ∀ s : State, s.cfgErr = false → s.input = [] → step s = .next s

/-! ### The byte step, state by state -/

/-- 40_frame_sync.md R56, with the step of R55 around it: in IDLE a 0xFF starts a frame candidate, every other byte is
ignored, and the timeout test is not applied. -/
def Obligations.IdleByteStep : Prop :=
  ∀ (s : State) (b : ByteEvent) (rest : List ByteEvent), Presents s b rest → s.st = .idle →
    step s = .next (if b.v = 0xFF then { afterByte s b rest with tStart := b.ts, st := .pre2 }
      else afterByte s b rest)

/-- 40_frame_sync.md R57: in PRE2 a second 0xFF completes the preamble, every other byte discards the candidate. That a
late 0xFF becomes the new first preamble byte is R57's own inference from R55 and R56, and that a byte with a negative
gap is never late is log 8's reading of 43_timeout_monitor.md R76. -/
def Obligations.PreambleByteStep : Prop :=
  ∀ (s : State) (b : ByteEvent) (rest : List ByteEvent), Presents s b rest → s.st = .pre2 →
    (¬ Late s b →
      step s = .next (if b.v = 0xFF then { afterByte s b rest with tPre2 := b.ts, st := .rid }
        else discarded (afterByte s b rest))) ∧
    (Late s b → b.v = 0xFF → step s = .next { discarded (afterByte s b rest) with tStart := b.ts, st := .pre2 })

/-- 40_frame_sync.md R58: in RID a 0xFF slides the preamble window, every other byte is the ID byte and starts both
accumulators. -/
def Obligations.IdByteStep : Prop :=
  ∀ (s : State) (b : ByteEvent) (rest : List ByteEvent), Presents s b rest → s.st = .rid → ¬ Late s b →
    step s = .next (if b.v = 0xFF then { afterByte s b rest with tStart := s.tPre2, tPre2 := b.ts }
      else { afterByte s b rest with hid := b.v, sum := b.v, crc := crcUpd 0x800D b.v, st := .rlen1 })

/-- 40_frame_sync.md R58, 30_encoding.md R46: a run of two or more 0xFF bytes from IDLE, none of them late, ends in RID
with the last two as the preamble, whatever the run's length; nothing is presented and nothing else is written. -/
def Obligations.PreambleRunsKeepTheLastTwo : Prop :=
  ∀ (s : State) (run rest : List ByteEvent) (x y : ByteEvent), s.cfgErr = false → s.st = .idle →
    s.input = run ++ x :: y :: rest → (∀ b ∈ run ++ [x, y], b.v = 0xFF) → NoGaps s.par (run ++ [x, y]) →
    RunsTo (run.length + 2) s
      { s with input := rest, cur := y, out := none, tLastS := y.ts, tLastE := y.te, tStart := x.ts, tPre2 := y.ts,
               st := .rid }

/-- 40_frame_sync.md R59: in RLEN1 the protocol is resolved; a Protocol 1 length below 2, or one whose payload does not
fit the buffer, discards the frame. -/
def Obligations.FirstLengthByteStep : Prop :=
  ∀ (s : State) (b : ByteEvent) (rest : List ByteEvent), Presents s b rest → s.st = .rlen1 → ¬ Late s b →
    step s = .next (
      if s.hid = 0xFD ∧ b.v = 0x00 then
        { afterByte s b rest with proto := some .p2, crc := crcUpd s.crc b.v, st := .p2Id }
      else if b.v.toNat < 2 ∨ s.par.payloadCap < b.v.toNat - 2 then discarded (afterByte s b rest)
      else { afterByte s b rest with proto := some .p1, id := s.hid, len := BitVec.ofNat 16 b.v.toNat,
                                     sum := BitVec.ofNat 8 ((s.sum.toNat + b.v.toNat) % 256), st := .p1Inst })

/-- 41_p1_decoder.md R61: the Protocol 1 opcode byte. -/
def Obligations.ProtocolOneOpcodeByteStep : Prop :=
  ∀ (s : State) (b : ByteEvent) (rest : List ByteEvent), Presents s b rest → s.st = .p1Inst → ¬ Late s b →
    step s = .next { afterByte s b rest with
      opc := b.v, sum := BitVec.ofNat 8 ((s.sum.toNat + b.v.toNat) % 256),
      st := if s.len = 2 then .p1Chk else .p1Data }

/-- 41_p1_decoder.md R62, 00_scope.md R15: a Protocol 1 payload byte is appended at index `bcnt` and summed; the frame
goes on to its trailer when the new count is `len - 2`. Every other byte of the buffer stays. -/
def Obligations.ProtocolOnePayloadByteStep : Prop :=
  ∀ (s : State) (b : ByteEvent) (rest : List ByteEvent), Inv s → Presents s b rest → s.st = .p1Data → ¬ Late s b →
    ∃ m : Memory,
      step s = .next { afterByte s b rest with
        buf := m, bcnt := BitVec.ofNat 16 (s.bcnt.toNat + 1),
        sum := BitVec.ofNat 8 ((s.sum.toNat + b.v.toNat) % 256),
        st := if s.bcnt.toNat + 1 = s.len.toNat - 2 then .p1Chk else .p1Data } ∧
      ∀ a : Nat, m.read a = if a = s.bcnt.toNat then b.v else s.buf.read a

/-- 42_p2_decoder.md R69: the Protocol 2 ID byte; every value is accepted. -/
def Obligations.ProtocolTwoIdByteStep : Prop :=
  ∀ (s : State) (b : ByteEvent) (rest : List ByteEvent), Presents s b rest → s.st = .p2Id → ¬ Late s b →
    step s = .next { afterByte s b rest with id := b.v, crc := crcUpd s.crc b.v, st := .p2Len1 }

/-- 42_p2_decoder.md R70, R71: the two length bytes of Protocol 2, low byte first; a length below 3, or one whose
payload does not fit the buffer, discards the frame at the second one. -/
def Obligations.ProtocolTwoLengthByteSteps : Prop :=
  ∀ (s : State) (b : ByteEvent) (rest : List ByteEvent), Presents s b rest → ¬ Late s b →
    (s.st = .p2Len1 →
      step s = .next { afterByte s b rest with
        len := BitVec.ofNat 16 b.v.toNat, crc := crcUpd s.crc b.v, st := .p2Len2 }) ∧
    (s.st = .p2Len2 →
      step s = .next (
        if s.len.toNat % 256 + 256 * b.v.toNat < 3 ∨
            s.par.payloadCap < s.len.toNat % 256 + 256 * b.v.toNat - 3 then discarded (afterByte s b rest)
        else { afterByte s b rest with
          len := BitVec.ofNat 16 (s.len.toNat % 256 + 256 * b.v.toNat), crc := crcUpd s.crc b.v, st := .p2Inst }))

/-- 42_p2_decoder.md R72: the Protocol 2 opcode byte. -/
def Obligations.ProtocolTwoOpcodeByteStep : Prop :=
  ∀ (s : State) (b : ByteEvent) (rest : List ByteEvent), Presents s b rest → s.st = .p2Inst → ¬ Late s b →
    step s = .next { afterByte s b rest with
      opc := b.v, crc := crcUpd s.crc b.v, st := if s.len = 3 then .p2Crc1 else .p2Data }

/-- 42_p2_decoder.md R73, 00_scope.md R15: a Protocol 2 payload byte. -/
def Obligations.ProtocolTwoPayloadByteStep : Prop :=
  ∀ (s : State) (b : ByteEvent) (rest : List ByteEvent), Inv s → Presents s b rest → s.st = .p2Data → ¬ Late s b →
    ∃ m : Memory,
      step s = .next { afterByte s b rest with
        buf := m, bcnt := BitVec.ofNat 16 (s.bcnt.toNat + 1), crc := crcUpd s.crc b.v,
        st := if s.bcnt.toNat + 1 = s.len.toNat - 3 then .p2Crc1 else .p2Data } ∧
      ∀ a : Nat, m.read a = if a = s.bcnt.toNat then b.v else s.buf.read a

/-- 42_p2_decoder.md R74: the low CRC byte of Protocol 2; the CRC is not updated with it. -/
def Obligations.LowCrcByteStep : Prop :=
  ∀ (s : State) (b : ByteEvent) (rest : List ByteEvent), Presents s b rest → s.st = .p2Crc1 → ¬ Late s b →
    step s = .next { afterByte s b rest with rxLo := b.v, st := .p2Crc2 }

/-- 41_p1_decoder.md R63, 42_p2_decoder.md R75, 44_dispatch.md R81: at the last trailer byte the step runs the
instruction that the opcode register and the payload buffer decode to, with the event on the port; around it the step
takes the event from the input, clears the output port first and records the event as the previous one. -/
def Obligations.TrailerStepRunsTheDecodedInstruction : Prop :=
  ∀ (s : State) (b : ByteEvent) (rest : List ByteEvent) (p : Proto) (i : Instr), Presents s b rest →
    s.st = (match p with
      | .p1 => .p1Chk
      | .p2 => .p2Crc2) →
    ¬ Late s b → s.bcnt.toNat ≤ s.par.payloadCap →
    decodeOp p s.opc ((List.range s.bcnt.toNat).map s.buf.read) = i →
    ∃ t, exec i { s with input := rest, cur := b, out := none } = .next t ∧
      step s = .next { t with tLastS := b.ts, tLastE := b.te }

/-- 43_timeout_monitor.md R77, R78: in every state but IDLE a late byte discards the frame in progress with no output,
and the same byte is then handled in IDLE. That a byte with a negative gap is never late is log 8's reading. -/
def Obligations.LateByteDiscardsTheFrame : Prop :=
  ∀ (s : State) (b : ByteEvent) (rest : List ByteEvent), Presents s b rest → s.st ≠ .idle → Late s b →
    step s = .next (if b.v = 0xFF then { discarded (afterByte s b rest) with tStart := b.ts, st := .pre2 }
      else discarded (afterByte s b rest))

/-! ### Requests -/

/-- 45_requests.md R91 to R94: Ping, Action, Factory Reset and Reboot of both protocols complete in every state with
every payload: a record with an empty body, the last opcode, and no other effect on the block. -/
def Obligations.OperandlessRequestsOnlyRecord : Prop :=
  ∀ (pay : List Byte) (s : State),
    (∃ t, EmitsRequest (.p1Ping pay) s t .ping .empty) ∧ (∃ t, EmitsRequest (.p2Ping pay) s t .ping .empty) ∧
    (∃ t, EmitsRequest (.p1Action pay) s t .action .empty) ∧
    (∃ t, EmitsRequest (.p2Action pay) s t .action .empty) ∧
    (∃ t, EmitsRequest (.p1FactoryReset pay) s t .factoryReset .empty) ∧
    (∃ t, EmitsRequest (.p2FactoryReset pay) s t .factoryReset .empty) ∧
    (∃ t, EmitsRequest (.p1Reboot pay) s t .reboot .empty) ∧ (∃ t, EmitsRequest (.p2Reboot pay) s t .reboot .empty)

/-- 45_requests.md R95: a well-formed Read of either protocol records its register and count and names the register;
bytes after the count are ignored. -/
def Obligations.ReadRecordsItsRegister : Prop :=
  ∀ (s : State) (rest : List Byte),
    (∀ a c : Byte, ∃ t,
      Emits (.p1Read (a :: c :: rest)) s t .read
        (.read (a.setWidth 16) (c.setWidth 16) (regLut s.par (frameFamily .p1 s) (a.setWidth 16))) ∧
      LastOpcIs 0x02 t ∧ LastReadIs (a.setWidth 16) (c.setWidth 16) t ∧ BulkKept s t) ∧
    (∀ a c : Half, ∃ t,
      Emits (.p2Read (loByte a :: hiByte a :: loByte c :: hiByte c :: rest)) s t .read
        (.read a c (regLut s.par (frameFamily .p2 s) a)) ∧
      LastOpcIs 0x02 t ∧ LastReadIs a c t ∧ BulkKept s t)

/-- 45_requests.md R96, R97: a Write or Reg Write of either protocol with its whole address walks the value bytes from
that address and changes no register but the last opcode. -/
def Obligations.WritesWalkTheirValueBytes : Prop :=
  ∀ (s : State) (d : List Byte),
    (∀ a : Byte,
      (∃ t, EmitsRequest (.p1Write (a :: d)) s t .write
        (.write (a.setWidth 16) (regLut s.par (frameFamily .p1 s) (a.setWidth 16))
          (walk s.par (frameFamily .p1 s) (a.setWidth 16) d))) ∧
      (∃ t, EmitsRequest (.p1RegWrite (a :: d)) s t .regWrite
        (.write (a.setWidth 16) (regLut s.par (frameFamily .p1 s) (a.setWidth 16))
          (walk s.par (frameFamily .p1 s) (a.setWidth 16) d)))) ∧
    (∀ a : Half,
      (∃ t, EmitsRequest (.p2Write (loByte a :: hiByte a :: d)) s t .write
        (.write a (regLut s.par (frameFamily .p2 s) a) (walk s.par (frameFamily .p2 s) a d))) ∧
      (∃ t, EmitsRequest (.p2RegWrite (loByte a :: hiByte a :: d)) s t .regWrite
        (.write a (regLut s.par (frameFamily .p2 s) a) (walk s.par (frameFamily .p2 s) a d))))

/-- 60_exceptions.md R111 on R95, R96, R97: a Read, Write or Reg Write whose payload is shorter than its structure
gives an ERROR record with its cause, sets the last opcode and leaves every other register as it was. -/
def Obligations.ShortReadsAndWritesGiveErrorRecords : Prop :=
  ∀ (s : State) (pay : List Byte),
    (pay.length < 2 → ∃ t, EmitsRequest (.p1Read pay) s t .error (.error .read .read)) ∧
    (pay.length < 4 → ∃ t, EmitsRequest (.p2Read pay) s t .error (.error .read .read)) ∧
    (pay.length < 1 → (∃ t, EmitsRequest (.p1Write pay) s t .error (.error .write .write)) ∧
      ∃ t, EmitsRequest (.p1RegWrite pay) s t .error (.error .write .regWrite)) ∧
    (pay.length < 2 → (∃ t, EmitsRequest (.p2Write pay) s t .error (.error .write .write)) ∧
      ∃ t, EmitsRequest (.p2RegWrite pay) s t .error (.error .write .regWrite))

/-- 45_requests.md R98 to R100, 44_dispatch.md R89: Clear, Backup, Sync Read and every unrecognised opcode pass the
payload through as raw bytes and change no register but the last opcode. -/
def Obligations.RawFramesPassThePayload : Prop :=
  ∀ (opc : Byte) (pay : List Byte) (s : State),
    (∃ t, EmitsRequest (.p2Clear pay) s t .clear (.raw pay)) ∧
    (∃ t, EmitsRequest (.p2Backup pay) s t .backup (.raw pay)) ∧
    (∃ t, EmitsRequest (.p2SyncRead pay) s t .syncRead (.raw pay)) ∧
    (∃ t, EmitsRequest (.p1Unknown opc pay) s t .unknown (.raw pay)) ∧
    (∃ t, EmitsRequest (.p2Unknown opc pay) s t .unknown (.raw pay))

/-- 45_requests.md R101: a Sync Write whose payload is its header and whole chunks (an ID and `count` value bytes
each) gives every chunk, its bytes walked from the shared address with the frame's own table. -/
def Obligations.SyncWriteGivesEveryChunk : Prop :=
  ∀ (s : State) (chunks : List (Byte × List Byte)),
    (∀ a c : Byte, (∀ x ∈ chunks, x.2.length = c.toNat) →
      ∃ t, EmitsRequest (.p1SyncWrite (a :: c :: chunks.flatMap (fun x => x.1 :: x.2))) s t .syncWrite
        (.syncWrite (a.setWidth 16) (c.setWidth 16)
          (chunks.map fun x => { sid := x.1, items := walk s.par (frameFamily .p1 s) (a.setWidth 16) x.2 }))) ∧
    (∀ a c : Half, (∀ x ∈ chunks, x.2.length = c.toNat) →
      ∃ t, EmitsRequest (.p2SyncWrite (loByte a :: hiByte a :: loByte c :: hiByte c ::
          chunks.flatMap (fun x => x.1 :: x.2))) s t .syncWrite
        (.syncWrite a c (chunks.map fun x => { sid := x.1, items := walk s.par (frameFamily .p2 s) a x.2 })))

/-- 45_requests.md R101, 60_exceptions.md R111: a Sync Write with a short header, or with a last chunk that has an ID
and fewer than `count` value bytes, gives the ERROR record of its cause. -/
def Obligations.ShortSyncWritesGiveErrorRecords : Prop :=
  ∀ (s : State) (chunks : List (Byte × List Byte)) (sid : Byte) (tail : List Byte),
    (∀ pay : List Byte, pay.length < 2 →
      ∃ t, EmitsRequest (.p1SyncWrite pay) s t .error (.error .syncwHdr .syncWrite)) ∧
    (∀ pay : List Byte, pay.length < 4 →
      ∃ t, EmitsRequest (.p2SyncWrite pay) s t .error (.error .syncwHdr .syncWrite)) ∧
    (∀ a c : Byte, (∀ x ∈ chunks, x.2.length = c.toNat) → tail.length < c.toNat →
      ∃ t, EmitsRequest (.p1SyncWrite (a :: c :: (chunks.flatMap (fun x => x.1 :: x.2) ++ sid :: tail))) s t .error
        (.error .syncwChunk .syncWrite)) ∧
    (∀ a c : Half, (∀ x ∈ chunks, x.2.length = c.toNat) → tail.length < c.toNat →
      ∃ t, EmitsRequest (.p2SyncWrite (loByte a :: hiByte a :: loByte c :: hiByte c ::
          (chunks.flatMap (fun x => x.1 :: x.2) ++ sid :: tail))) s t .error (.error .syncwChunk .syncWrite))

/-- 45_requests.md R102: a Bulk Write of either protocol whose payload is whole entries (a 5-byte header and `count`
data bytes each) gives every entry, its data walked from the entry's own address. -/
def Obligations.BulkWriteGivesEveryEntry : Prop :=
  ∀ (p : Proto) (s : State) (entries : List ((Byte × Half × Half) × List Byte)),
    (∀ e ∈ entries, e.2.length = e.1.2.2.toNat) →
    ∃ t, EmitsRequest (byProto p (.p1BulkWrite (entries.flatMap fun e => entryBytes e.1 ++ e.2))
          (.p2BulkWrite (entries.flatMap fun e => entryBytes e.1 ++ e.2))) s t .bulkWrite
        (.bulkWrite (entries.map fun e => { sid := e.1.1, addr := e.1.2.1, count := e.1.2.2,
                                            items := walk s.par (frameFamily p s) e.1.2.1 e.2 }))

/-- 45_requests.md R102, 60_exceptions.md R111: a Bulk Write that ends inside an entry's header, or whose last entry
declares more data than is left, gives the ERROR record of its cause. -/
def Obligations.ShortBulkWritesGiveErrorRecords : Prop :=
  ∀ (p : Proto) (s : State) (entries : List ((Byte × Half × Half) × List Byte)) (e : Byte × Half × Half)
    (tail pay : List Byte),
    (∀ e ∈ entries, e.2.length = e.1.2.2.toNat) → pay = entries.flatMap (fun e => entryBytes e.1 ++ e.2) →
    (1 ≤ tail.length → tail.length ≤ 4 →
      ∃ t, EmitsRequest (byProto p (.p1BulkWrite (pay ++ tail)) (.p2BulkWrite (pay ++ tail))) s t .error
        (.error .bulkwHdr .bulkWrite)) ∧
    (tail.length < e.2.2.toNat →
      ∃ t, EmitsRequest (byProto p (.p1BulkWrite (pay ++ entryBytes e ++ tail))
        (.p2BulkWrite (pay ++ entryBytes e ++ tail))) s t .error (.error .bulkwData .bulkWrite))

/-- 46_bulk_and_response.md R103, R104: a Bulk Read of either protocol writes the map for every complete entry in
payload order, so that the last entry for a servo counts and a servo it does not name keeps its entry; a tail of 1 to
4 bytes makes the record an ERROR record and undoes no write. The register of the last Read stays. -/
def Obligations.BulkReadWritesTheMap : Prop :=
  ∀ (p : Proto) (s : State) (entries : List (Byte × Half × Half)) (tail pay : List Byte),
    s.bulk.wf = true → pay = entries.flatMap entryBytes ++ tail → tail.length < 5 →
    ∃ t, Emits (byProto p (.p1BulkRead pay) (.p2BulkRead pay)) s t
        (if tail = [] then .bulkRead else .error)
        (if tail = [] then .bulkRead (entries.map fun e =>
            { sid := e.1, addr := e.2.1, count := e.2.2, reg := regLut s.par (frameFamily p s) e.2.1 })
          else .error .bulkrEntry .bulkRead) ∧
      LastOpcIs 0x92 t ∧ LastReadKept s t ∧
      ∀ id : Byte, t.bulk.read id =
        match entries.reverse.find? (fun e => e.1 == id) with
        | some e => { v := true, reg := e.2.1, cnt := e.2.2 }
        | none => s.bulk.read id

/-! ### Response -/

/-- 46_bulk_and_response.md R105: a Response with an empty payload decodes nothing. -/
def Obligations.EmptyResponseDecodesNothing : Prop :=
  ∀ (p : Proto) (s : State),
    EmitsResponse p [] s { status := none, corr := .none, model := none, fw := none, base := none, reqCount := none,
                           items := [], data := [] }

/-- 46_bulk_and_response.md R105, R106: after a Ping, a Response with at least four payload bytes is a Ping reply:
model number low byte first, then the firmware version. -/
def Obligations.PingReplyGivesModelAndFirmware : Prop :=
  ∀ (p : Proto) (s : State) (st fw : Byte) (model : Half) (rest : List Byte), LastOpcIs 0x01 s →
    EmitsResponse p (st :: loByte model :: hiByte model :: fw :: rest) s
      { status := some (statusOf p st), corr := .ping, model := some model, fw := some fw, base := none,
        reqCount := none, items := [], data := loByte model :: hiByte model :: fw :: rest }

/-- 46_bulk_and_response.md R105: after a Bulk Read, a Response is decoded by the map entry of its own ID, whatever the
last Read was; without an entry its data stay raw. -/
def Obligations.BulkReplyUsesTheMap : Prop :=
  ∀ (p : Proto) (s : State) (st : Byte) (data : List Byte), LastOpcIs 0x92 s →
    ((s.bulk.read s.id).v = true →
      EmitsResponse p (st :: data) s
        { status := some (statusOf p st), corr := .bulk, model := none, fw := none,
          base := some (s.bulk.read s.id).reg, reqCount := some (s.bulk.read s.id).cnt,
          items := walk s.par (frameFamily p s) (s.bulk.read s.id).reg data, data := data }) ∧
    ((s.bulk.read s.id).v = false →
      EmitsResponse p (st :: data) s
        { status := some (statusOf p st), corr := .bulkMiss, model := none, fw := none, base := none,
          reqCount := none, items := [], data := data })

/-- 46_bulk_and_response.md R105: a Response that is no Ping reply and follows no Bulk Read is decoded from the last
Read's register where there is one, and is raw data where there is none. -/
def Obligations.OtherReplyUsesTheLastRead : Prop :=
  ∀ (p : Proto) (s : State) (st : Byte) (data : List Byte), ¬ LastOpcIs 0x92 s →
    (¬ LastOpcIs 0x01 s ∨ data.length < 3) →
    (s.lastRegV = true →
      EmitsResponse p (st :: data) s
        { status := some (statusOf p st), corr := .read, model := none, fw := none, base := some s.lastReg,
          reqCount := some s.lastCnt, items := walk s.par (frameFamily p s) s.lastReg data, data := data }) ∧
    (s.lastRegV = false →
      EmitsResponse p (st :: data) s
        { status := some (statusOf p st), corr := .none, model := none, fw := none, base := none,
          reqCount := none, items := [], data := data })

/-- 46_bulk_and_response.md R107: after a Bulk Read whose last entry for servo `sid` is the register `a` and the count
`c`, a Response from that servo, in any state that still has the map and the last opcode of the state it left, is
decoded with that register, never with the last Read's. -/
def Obligations.BulkReadThenResponseCorrelates : Prop :=
  ∀ (p q : Proto) (s t u : State) (before after : List (Byte × Half × Half)) (sid st : Byte) (a c : Half)
    (pay data : List Byte), s.bulk.wf = true →
    pay = (before ++ (sid, a, c) :: after).flatMap entryBytes → (∀ e ∈ after, e.1 ≠ sid) →
    exec (byProto p (.p1BulkRead pay) (.p2BulkRead pay)) s = .next t →
    (u.bulk.read sid = t.bulk.read sid ∧ LastOpcKept t u ∧ u.id = sid) →
    EmitsResponse q (st :: data) u
      { status := some (statusOf q st), corr := .bulk, model := none, fw := none, base := some a, reqCount := some c,
        items := walk u.par (frameFamily q u) a data, data := data }

/-! ### Registers of the servos -/

/-- 44_dispatch.md R83, 10_state.md R25: where no supplied TABSEL exception applies to a frame, the family configured
for its protocol decodes it, whatever the board hint and the ID. How exceptions are held is log 9's choice. -/
def Obligations.DefaultTableIsTheConfiguredFamily : Prop :=
  ∀ s : State,
    ((∀ r ∈ s.par.tabsel, ¬ TabApplies .p1 s r) →
      (s.cfg.fam1 = 0 → frameFamily .p1 s = .ax) ∧ (s.cfg.fam1 = 1 → frameFamily .p1 s = .mx) ∧
      (s.cfg.fam1 = 2 → frameFamily .p1 s = .xl) ∧ (s.cfg.fam1 = 3 → frameFamily .p1 s = .x)) ∧
    ((∀ r ∈ s.par.tabsel, ¬ TabApplies .p2 s r) →
      (s.cfg.fam2 = 0 → frameFamily .p2 s = .x) ∧ (s.cfg.fam2 = 1 → frameFamily .p2 s = .mx) ∧
      (s.cfg.fam2 = 2 → frameFamily .p2 s = .xl))

/-- 44_dispatch.md R83: a supplied TABSEL exception that applies to a frame's protocol, configuration and ID selects
the family that decodes it; of several, the first. How exceptions are held is log 9's choice. -/
def Obligations.SuppliedExceptionSelectsTheTable : Prop :=
  ∀ (p : Proto) (s : State) (before after : List TabRule) (r : TabRule), s.par.tabsel = before ++ r :: after →
    (∀ q ∈ before, ¬ TabApplies p s q) → TabApplies p s r → frameFamily p s = r.fam

/-- 44_dispatch.md R84, 20_memory.md R39: the lookup gives the descriptor of an address that the family's table holds
once, and no name and one byte for an address it does not hold. -/
def Obligations.LookupFindsTheTableEntry : Prop :=
  ∀ (par : Params) (fam : Family) (a : Half),
    (∀ d : RegDescriptor, (⟨fam, a, d⟩ : RegEntry) ∈ par.regtab →
      (∀ e ∈ par.regtab, e.fam = fam → e.addr = a → e.desc = d) →
      regLut par fam a = { known := true, name := some d.name, width := d.width }) ∧
    ((∀ e ∈ par.regtab, ¬ (e.fam = fam ∧ e.addr = a)) →
      regLut par fam a = { known := false, name := none, width := .w1 })

/-- 44_dispatch.md R85: the register walk, item by item: no data, no item; otherwise the register at the address takes
as many bytes as it is wide, or those that are left, read little-endian, and the walk goes on after them at the
address modulo 65536. -/
def Obligations.WalkTakesRegisterAfterRegister : Prop :=
  ∀ (par : Params) (fam : Family) (a : Half) (d : List Byte),
    walk par fam a [] = [] ∧
    (d ≠ [] →
      ∃ t : Nat, t = min (regLut par fam a).width.bytes d.length ∧
        walk par fam a d =
          { addr := a, known := (regLut par fam a).known, name := (regLut par fam a).name,
            width := (regLut par fam a).width, taken := t, value := BitVec.ofNat 32 (leNat (d.take t)),
            part := decide (t < (regLut par fam a).width.bytes) } ::
            walk par fam (BitVec.ofNat 16 ((a.toNat + t) % 65536)) (d.drop t))

/-- 44_dispatch.md R85: the walk takes every byte of the data once: the bytes its items took add up to the data's
length, no item takes none, and only the last can be partial. -/
def Obligations.WalkTakesEveryByte : Prop :=
  ∀ (par : Params) (fam : Family) (a : Half) (d : List Byte),
    ((walk par fam a d).map (fun x => x.taken)).sum = d.length ∧
    (∀ x ∈ walk par fam a d, 1 ≤ x.taken ∧ x.taken ≤ 4) ∧
    (∀ x ∈ (walk par fam a d).dropLast, x.part = false)

/-- 20_memory.md R33, 00_scope.md R15: a field's value is the sum over k of byte k times 256^k, and a 16-bit field is
its low byte and 256 times its high byte. -/
def Obligations.FieldsAreLittleEndian : Prop :=
  (∀ l : List Byte, leNat l = ((List.range l.length).map fun k => (l.getD k 0).toNat * 256 ^ k).sum) ∧
  (∀ lo hi : Byte, (le16 lo hi).toNat = lo.toNat + 256 * hi.toNat)

/-! ### The check values -/

/-- 42_p2_decoder.md R65, R66: the table-driven CRC update is the update by polynomial division, for every CRC and
every byte. The spec's table values are general knowledge (log 7). -/
def Obligations.CrcTableIsThePolynomial : Prop :=
  ∀ (crc : Half) (b : Byte), crcUpd crc b = crcBitwise crc b

/-- 42_p2_decoder.md R67, R68: the seed is the CRC of the two preamble bytes, and the published check values hold. -/
def Obligations.CrcCheckValues : Prop :=
  crcUpd (crcUpd 0x0000 0xFF) 0xFF = 0x800D ∧ crcSeed = 0x800D ∧
  crcOf [0x31, 0x32, 0x33, 0x34, 0x35, 0x36, 0x37, 0x38, 0x39] = 0xFEE8 ∧
  crcOf [0xFF, 0xFF, 0xFD, 0x00, 0x01, 0x03, 0x00, 0x01] = 0x4E19

/-- 41_p1_decoder.md R60: the checksum is the one's complement of the bytes' sum modulo 256, and summing modulo 256 at
every addition is summing in wide arithmetic and reducing once. -/
def Obligations.ChecksumIsTheComplementedSum : Prop :=
  ∀ l : List Byte, (checksum l).toNat = 255 - (l.map fun b => b.toNat).sum % 256

/-- 41_p1_decoder.md R60, R63, 42_p2_decoder.md R64, R75, 10_state.md R22: in every state that the invariant admits,
the record of a completed frame carries, as its expected check value, the check of the whole frame that was received,
and its payload has the length that the frame declared. -/
def Obligations.RecordedCheckIsThatOfTheFrame : Prop :=
  ∀ (s t : State) (b : ByteEvent) (rest : List ByteEvent) (r : Record), Inv s → Presents s b rest → ¬ Late s b →
    step s = .next t → t.out = some r →
    (s.st = .p1Chk →
      r.payload.length + 2 = s.len.toNat ∧
      (r.chkExp.toNat = 255 - (s.id.toNat + s.len.toNat + s.opc.toNat +
        (r.payload.map fun x => x.toNat).sum) % 256)) ∧
    (s.st = .p2Crc2 →
      r.payload.length + 3 = s.len.toNat ∧
      r.chkExp = crcOf ([0xFF, 0xFF, 0xFD, 0x00, s.id, loByte s.len, hiByte s.len, s.opc] ++ r.payload))

/-- 60_exceptions.md R112: the received check value changes nothing but the annotation: whatever the trailer byte on the
port and the low CRC byte held, the instruction leaves the same state and presents the same record, with the computed
value in `chk_exp`, the received one in `chk_act`, and `chk_ok` 1 exactly when they are equal. -/
def Obligations.MismatchOnlyAnnotates : Prop :=
  ∀ (i : Instr) (s t : State) (lo v : Byte), exec i s = .next t →
    ∃ (r : Record) (ok : Bool) (act : Half), t.out = some r ∧
      exec i { s with rxLo := lo, cur := { s.cur with v := v } } =
        .next { t with cur := { s.cur with v := v }, out := some { r with chkOk := ok, chkAct := act } } ∧
      (ok = true ↔ r.chkExp = act) ∧
      (match i.proto with
        | .p1 => r.chkExp.toNat = 255 - s.sum.toNat ∧ act.toNat = v.toNat
        | .p2 => r.chkExp = s.crc ∧ act.toNat = lo.toNat + 256 * v.toNat)

/-! ### Encoding -/

/-- 30_encoding.md R44, R45, R49: decoding the wire bytes of every well-formed instruction, to every ID its protocol
can carry, gives the ID and the instruction back with every operand byte, finds the check value right, and leaves the
bytes after the frame. -/
def Obligations.DecodeOfEncodeIsTheFrame : Prop :=
  ∀ (cap : Nat) (id : Byte) (i : Instr) (rest : List Byte), frameWf id i = true → i.payload.length ≤ cap →
    ∃ x, decodeFrame cap (encode id i ++ rest) = .ok { id := id, instr := i, chkExp := x, chkAct := x, rest := rest }

/-- 30_encoding.md R44, R45: a byte string that decodes with a right check value is the encoding of what it decodes
to, followed by the bytes left; and what it decodes to is well-formed. -/
def Obligations.EncodeOfDecodeIsTheBytes : Prop :=
  ∀ (cap : Nat) (bytes : List Byte) (d : Decoded), decodeFrame cap bytes = .ok d → d.chkExp = d.chkAct →
    frameWf d.id d.instr = true ∧ d.instr.payload.length ≤ cap ∧ bytes = encode d.id d.instr ++ d.rest

/-- 30_encoding.md R49: the opcode map of all 512 keys, through the mnemonic of the decoded instruction. -/
def Obligations.OpcodeMapIsTheTable : Prop :=
  ∀ (opc : Byte) (pay : List Byte),
    (decodeOp .p1 opc pay).mnemonic =
      (match opc.toNat with
        | 0x00 => .response | 0x01 => .ping | 0x02 => .read | 0x03 => .write | 0x04 => .regWrite | 0x05 => .action
        | 0x06 => .factoryReset | 0x08 => .reboot | 0x83 => .syncWrite | 0x92 => .bulkRead | 0x93 => .bulkWrite
        | _ => .unknown) ∧
    (decodeOp .p2 opc pay).mnemonic =
      (match opc.toNat with
        | 0x55 => .response | 0x01 => .ping | 0x02 => .read | 0x03 => .write | 0x04 => .regWrite | 0x05 => .action
        | 0x06 => .factoryReset | 0x08 => .reboot | 0x10 => .clear | 0x20 => .backup | 0x82 => .syncRead
        | 0x83 => .syncWrite | 0x92 => .bulkRead | 0x93 => .bulkWrite | _ => .unknown)

/-- 45_requests.md R91, R95, R96, 46_bulk_and_response.md R103: frames that the spec prints byte by byte decode to the
instructions they stand for, with the printed check values. -/
def Obligations.PrintedFramesDecode : Prop :=
  decodeFrame 65532 [0xFF, 0xFF, 0x01, 0x02, 0x01, 0xFB] =
    .ok { id := 1, instr := .p1Ping [], chkExp := 0xFB, chkAct := 0xFB, rest := [] } ∧
  decodeFrame 65532 [0xFF, 0xFF, 0x01, 0x04, 0x03, 0x03, 0x01, 0xF3] =
    .ok { id := 1, instr := .p1Write [0x03, 0x01], chkExp := 0xF3, chkAct := 0xF3, rest := [] } ∧
  decodeFrame 65532 [0xFF, 0xFF, 0xFD, 0x00, 0x01, 0x07, 0x00, 0x02, 0x84, 0x00, 0x04, 0x00, 0x1D, 0x15] =
    .ok { id := 1, instr := .p2Read [0x84, 0x00, 0x04, 0x00], chkExp := 0x151D, chkAct := 0x151D, rest := [] } ∧
  decodeFrame 65532
      [0xFF, 0xFF, 0xFD, 0x00, 0xFE, 0x08, 0x00, 0x92, 0x05, 0x1E, 0x00, 0x02, 0x00, 0xC4, 0xE7] =
    .ok { id := 0xFE, instr := .p2BulkRead [0x05, 0x1E, 0x00, 0x02, 0x00], chkExp := 0xE7C4, chkAct := 0xE7C4,
          rest := [] }

/-! ### Invariants and whole-machine rules -/

/-- 70_reset_and_hazards.md R121: the invariant of the machine holds after every session reset. -/
def Obligations.InvariantHoldsAfterReset : Prop :=
  ∀ (p : Params) (c : Cfg), Inv (State.sessionReset p c)

/-- 10_state.md R19 to R22, R26, R30, 41_p1_decoder.md R60, 42_p2_decoder.md R64: every step keeps the invariant, from
every state that has it: canonical memories, the buffer within PAYLOAD_CAP, the registers that belong to the framing
state, the length bounds, the payload count against the declared length, and the running sum and CRC equal to those of
the frame's bytes so far. -/
def Obligations.EveryStepKeepsTheInvariant : Prop :=
  ∀ s t : State, Inv s → step s = .next t → Inv t

/-- 60_exceptions.md, opening: with a valid configuration no input stops the block: every state that the invariant
admits has a next state, and so a run from it is safe. -/
def Obligations.ValidConfigurationNeverStops : Prop :=
  ∀ s : State, Inv s → s.cfgErr = false → SafeRun s

/-- 00_scope.md R11, 10_state.md R19, R23, 44_dispatch.md R86: timestamps that fit in TIME_W bits stay so: every
register and every record holds timestamps of events only. TIME_W is open; this holds for every value of it. -/
def Obligations.TimestampsStayWithinTheirWidth : Prop :=
  ∀ s t : State, TimesFit s → step s = .next t → TimesFit t

/-- 60_exceptions.md R117, 10_state.md R25 to R27: no step changes the configuration, `cfg_err` or the parameters. -/
def Obligations.NoStepChangesTheConfiguration : Prop :=
  ∀ s t : State, step s = .next t → FixedKept s t

/-- 40_frame_sync.md R55, 70_reset_and_hazards.md R124: a step takes exactly one event from the input, which is the
previous event then, and presents a record only if it began at the last trailer byte of a frame. -/
def Obligations.StepTakesOneEventAndEmitsOnlyAtTrailers : Prop :=
  ∀ (s t : State) (b : ByteEvent) (rest : List ByteEvent), s.input = b :: rest → step s = .next t →
    t.input = rest ∧ t.tLastS = b.ts ∧ t.tLastE = b.te ∧
    (t.out ≠ none → (s.st = .p1Chk ∨ s.st = .p2Crc2) ∧ ¬ Late s b ∧ FramingReset t)

/-- 44_dispatch.md R82, 45_requests.md R95, 46_bulk_and_response.md R104, 60_exceptions.md R110: the correlation
registers change only with a record: the last opcode with every record but a Response's, to the record's opcode; the
last Read only with a READ record; the map only with a Bulk Read's record. A discarded frame changes none. -/
def Obligations.CorrelationChangesOnlyWithItsRecord : Prop :=
  ∀ (s t : State) (b : ByteEvent) (rest : List ByteEvent), s.input = b :: rest → step s = .next t →
    (match t.out with
      | none => LastOpcKept s t
      | some r => if r.op = .response then LastOpcKept s t else LastOpcIs r.opc t) ∧
    (LastReadKept s t ∨ ∃ r, t.out = some r ∧ r.kind = .read) ∧
    (BulkKept s t ∨ ∃ r, t.out = some r ∧ r.op = .bulkRead)

/-- 44_dispatch.md R86 to R88, 60_exceptions.md R111: every record a step presents has the kind of its handler or kind
ERROR, the body that its kind selects, and in an ERROR record a cause that its handler can raise. -/
def Obligations.EveryRecordHasItsShape : Prop :=
  ∀ (s t : State) (b : ByteEvent) (rest : List ByteEvent) (r : Record), s.input = b :: rest → step s = .next t →
    t.out = some r → RecordShape r

/-- 10_state.md R25: the fields `base` and `pairs` of the configuration affect no step: with any valid values of them
the machine makes the same step, but for those two fields. -/
def Obligations.DisplayFieldsAffectNoStep : Prop :=
  ∀ (s t : State) (base : BitVec 2) (pairs : BitVec 1), step s = .next t →
    step { s with cfg := { s.cfg with base := base, pairs := pairs } } =
      .next { t with cfg := { s.cfg with base := base, pairs := pairs } }

/-- 30_encoding.md R44, R45, R48, 40_frame_sync.md R55, 43_timeout_monitor.md R80, 44_dispatch.md R81: the byte machine
decodes whole frames. From IDLE, or from inside another frame where the first byte comes late, the wire bytes of any
well-formed instruction to any ID, with no late byte among them, take as many steps as they have bytes; the last step
runs that instruction, from the correlation registers that the first byte found, and presents its record with the right
ID, opcode and payload, a matching check, the start time of the first byte and the end time of the last; the block is
back in IDLE with nothing of the frame left and the events after it still to come. -/
def Obligations.WholeFramesAreDecoded : Prop :=
  ∀ (s : State) (id : Byte) (i : Instr) (events rest : List ByteEvent), Inv s → s.cfgErr = false →
    (s.st = .idle ∨ ∃ b ∈ events.head?, Late s b) → frameWf id i = true → i.payload.length ≤ s.par.payloadCap →
    events.map (fun b => b.v) = encode id i →
    NoGaps s.par events → s.input = events ++ rest →
    ∃ (t u v : State) (r : Record), RunsTo events.length s t ∧ t.input = rest ∧ FramingReset t ∧
      t.out = some r ∧ r.op = i.mnemonic ∧ r.proto = i.proto ∧ r.id = id ∧ r.opc = i.opcode ∧
      r.payload = i.payload ∧ r.chkOk = true ∧ some r.tStart = events.head?.map (fun b => b.ts) ∧
      some r.tEnd = events.getLast?.map (fun b => b.te) ∧
      exec i u = .next v ∧ FixedKept s u ∧ LastOpcKept s u ∧ LastReadKept s u ∧ BulkKept s u ∧
      t = { v with tLastS := t.tLastS, tLastE := t.tLastE }
end

