-- ==== Sys2Proof/Laws/Bytes.lean ====
section
/-! SUPPORT. The laws of byte order: what the primitives of 00_scope.md R13 and R15 are as numbers, and that splitting a
16-bit field into its bytes undoes joining them (20_memory.md R32). -/

namespace Sys2Proof.Machine

@[simp] theorem zext16_toNat (b : Byte) : (zext16 b).toNat = b.toNat := by
  have := b.isLt
  simp only [zext16, BitVec.toNat_setWidth]
  omega

theorem loByte_toNat (h : Half) : (loByte h).toNat = h.toNat % 256 := by simp [loByte]

theorem hiByte_toNat (h : Half) : (hiByte h).toNat = h.toNat / 256 := by
  have := h.isLt
  simp only [hiByte, BitVec.toNat_setWidth, BitVec.toNat_ushiftRight, Nat.shiftRight_eq_div_pow]
  omega

/-- A 16-bit field from its two bytes, as a number. -/
theorem le16_eq (lo hi : Byte) : le16 lo hi = BitVec.ofNat 16 (hi.toNat * 2 ^ 8 + lo.toNat) := by
  have h1 := lo.isLt
  have h2 := hi.isLt
  apply BitVec.eq_of_toNat_eq
  simp only [le16, BitVec.toNat_or, BitVec.toNat_setWidth, BitVec.toNat_shiftLeft, Nat.shiftLeft_eq,
    BitVec.toNat_ofNat]
  rw [Nat.mod_eq_of_lt (show lo.toNat < 2 ^ 16 by omega), Nat.mod_eq_of_lt (show hi.toNat < 2 ^ 16 by omega),
    Nat.mod_eq_of_lt (show hi.toNat * 2 ^ 8 < 2 ^ 16 by omega), Nat.or_comm, ← Nat.shiftLeft_eq,
    ← Nat.shiftLeft_add_eq_or_of_lt (by omega), Nat.mod_eq_of_lt (by rw [Nat.shiftLeft_eq]; omega)]

theorem loByte_le16 (lo hi : Byte) : loByte (le16 lo hi) = lo := by
  have h1 := lo.isLt
  have h2 := hi.isLt
  apply BitVec.eq_of_toNat_eq
  rw [loByte_toNat, le16_eq, BitVec.toNat_ofNat]
  omega

theorem hiByte_le16 (lo hi : Byte) : hiByte (le16 lo hi) = hi := by
  have h1 := lo.isLt
  have h2 := hi.isLt
  apply BitVec.eq_of_toNat_eq
  rw [hiByte_toNat, le16_eq, BitVec.toNat_ofNat]
  omega

@[simp] theorem le16_loByte_hiByte (h : Half) : le16 (loByte h) (hiByte h) = h := by
  have := h.isLt
  apply BitVec.eq_of_toNat_eq
  rw [le16_eq, BitVec.toNat_ofNat, loByte_toNat, hiByte_toNat]
  omega

theorem loByte_zext16 (b : Byte) : loByte (zext16 b) = b := by
  have := b.isLt
  apply BitVec.eq_of_toNat_eq
  rw [loByte_toNat, zext16_toNat]
  omega

end Sys2Proof.Machine
end

