-- ==== Sys2Proof/Laws/PerInstr.lean ====
section
/-! SUPPORT. Per-instruction laws of the syntax: the opcode map of the decoder undoes that of the encoder
(30_encoding.md R49). -/

namespace Sys2Proof

/-- No row but UNKNOWN matches an opcode that Protocol 1 gives no row of its own. -/
theorem p1_lookup_none : ∀ opc : Byte, p1Opcodes.contains opc = false →
    ((p1Rows ++ p2Rows).lookup (decodeKey .p1 opc)).isNone = true := by decide

/-- No row but UNKNOWN matches an opcode that Protocol 2 gives no row of its own. -/
theorem p2_lookup_none : ∀ opc : Byte, p2Opcodes.contains opc = false →
    ((p1Rows ++ p2Rows).lookup (decodeKey .p2 opc)).isNone = true := by decide

theorem decodeOp_p1_unknown (opc : Byte) (pay : List Byte) (h : p1Opcodes.contains opc = false) :
    decodeOp .p1 opc pay = .p1Unknown opc pay := by
  have hn := Option.isNone_iff_eq_none.1 (p1_lookup_none opc h)
  simp only [decodeOp, hn, unknownRow]

theorem decodeOp_p2_unknown (opc : Byte) (pay : List Byte) (h : p2Opcodes.contains opc = false) :
    decodeOp .p2 opc pay = .p2Unknown opc pay := by
  have hn := Option.isNone_iff_eq_none.1 (p2_lookup_none opc h)
  simp only [decodeOp, hn, unknownRow]

/-- The decoder's opcode map gives a well-formed instruction back from its protocol, opcode byte and payload. -/
def Laws.OpcodeRoundTrip.Statement (i : Instr) : Prop := i.wf = true → decodeOp i.proto i.opcode i.payload = i

theorem Laws.OpcodeRoundTrip.p1Response (pay : List Byte) : Laws.OpcodeRoundTrip.Statement (.p1Response pay) :=
  fun _ => (rfl : decodeOp .p1 0x00 pay = .p1Response pay)
theorem Laws.OpcodeRoundTrip.p1Ping (pay : List Byte) : Laws.OpcodeRoundTrip.Statement (.p1Ping pay) :=
  fun _ => (rfl : decodeOp .p1 0x01 pay = .p1Ping pay)
theorem Laws.OpcodeRoundTrip.p1Read (pay : List Byte) : Laws.OpcodeRoundTrip.Statement (.p1Read pay) :=
  fun _ => (rfl : decodeOp .p1 0x02 pay = .p1Read pay)
theorem Laws.OpcodeRoundTrip.p1Write (pay : List Byte) : Laws.OpcodeRoundTrip.Statement (.p1Write pay) :=
  fun _ => (rfl : decodeOp .p1 0x03 pay = .p1Write pay)
theorem Laws.OpcodeRoundTrip.p1RegWrite (pay : List Byte) : Laws.OpcodeRoundTrip.Statement (.p1RegWrite pay) :=
  fun _ => (rfl : decodeOp .p1 0x04 pay = .p1RegWrite pay)
theorem Laws.OpcodeRoundTrip.p1Action (pay : List Byte) : Laws.OpcodeRoundTrip.Statement (.p1Action pay) :=
  fun _ => (rfl : decodeOp .p1 0x05 pay = .p1Action pay)
theorem Laws.OpcodeRoundTrip.p1FactoryReset (pay : List Byte) : Laws.OpcodeRoundTrip.Statement (.p1FactoryReset pay) :=
  fun _ => (rfl : decodeOp .p1 0x06 pay = .p1FactoryReset pay)
theorem Laws.OpcodeRoundTrip.p1Reboot (pay : List Byte) : Laws.OpcodeRoundTrip.Statement (.p1Reboot pay) :=
  fun _ => (rfl : decodeOp .p1 0x08 pay = .p1Reboot pay)
theorem Laws.OpcodeRoundTrip.p1SyncWrite (pay : List Byte) : Laws.OpcodeRoundTrip.Statement (.p1SyncWrite pay) :=
  fun _ => (rfl : decodeOp .p1 0x83 pay = .p1SyncWrite pay)
theorem Laws.OpcodeRoundTrip.p1BulkRead (pay : List Byte) : Laws.OpcodeRoundTrip.Statement (.p1BulkRead pay) :=
  fun _ => (rfl : decodeOp .p1 0x92 pay = .p1BulkRead pay)
theorem Laws.OpcodeRoundTrip.p1BulkWrite (pay : List Byte) : Laws.OpcodeRoundTrip.Statement (.p1BulkWrite pay) :=
  fun _ => (rfl : decodeOp .p1 0x93 pay = .p1BulkWrite pay)
theorem Laws.OpcodeRoundTrip.p1Unknown (opc : Byte) (pay : List Byte) :
    Laws.OpcodeRoundTrip.Statement (.p1Unknown opc pay) := fun h =>
  decodeOp_p1_unknown opc pay (by simpa [Instr.wf, Instr.opcodeOk] using (Bool.and_eq_true_iff.1 h).2)
theorem Laws.OpcodeRoundTrip.p2Response (pay : List Byte) : Laws.OpcodeRoundTrip.Statement (.p2Response pay) :=
  fun _ => (rfl : decodeOp .p2 0x55 pay = .p2Response pay)
theorem Laws.OpcodeRoundTrip.p2Ping (pay : List Byte) : Laws.OpcodeRoundTrip.Statement (.p2Ping pay) :=
  fun _ => (rfl : decodeOp .p2 0x01 pay = .p2Ping pay)
theorem Laws.OpcodeRoundTrip.p2Read (pay : List Byte) : Laws.OpcodeRoundTrip.Statement (.p2Read pay) :=
  fun _ => (rfl : decodeOp .p2 0x02 pay = .p2Read pay)
theorem Laws.OpcodeRoundTrip.p2Write (pay : List Byte) : Laws.OpcodeRoundTrip.Statement (.p2Write pay) :=
  fun _ => (rfl : decodeOp .p2 0x03 pay = .p2Write pay)
theorem Laws.OpcodeRoundTrip.p2RegWrite (pay : List Byte) : Laws.OpcodeRoundTrip.Statement (.p2RegWrite pay) :=
  fun _ => (rfl : decodeOp .p2 0x04 pay = .p2RegWrite pay)
theorem Laws.OpcodeRoundTrip.p2Action (pay : List Byte) : Laws.OpcodeRoundTrip.Statement (.p2Action pay) :=
  fun _ => (rfl : decodeOp .p2 0x05 pay = .p2Action pay)
theorem Laws.OpcodeRoundTrip.p2FactoryReset (pay : List Byte) : Laws.OpcodeRoundTrip.Statement (.p2FactoryReset pay) :=
  fun _ => (rfl : decodeOp .p2 0x06 pay = .p2FactoryReset pay)
theorem Laws.OpcodeRoundTrip.p2Reboot (pay : List Byte) : Laws.OpcodeRoundTrip.Statement (.p2Reboot pay) :=
  fun _ => (rfl : decodeOp .p2 0x08 pay = .p2Reboot pay)
theorem Laws.OpcodeRoundTrip.p2Clear (pay : List Byte) : Laws.OpcodeRoundTrip.Statement (.p2Clear pay) :=
  fun _ => (rfl : decodeOp .p2 0x10 pay = .p2Clear pay)
theorem Laws.OpcodeRoundTrip.p2Backup (pay : List Byte) : Laws.OpcodeRoundTrip.Statement (.p2Backup pay) :=
  fun _ => (rfl : decodeOp .p2 0x20 pay = .p2Backup pay)
theorem Laws.OpcodeRoundTrip.p2SyncRead (pay : List Byte) : Laws.OpcodeRoundTrip.Statement (.p2SyncRead pay) :=
  fun _ => (rfl : decodeOp .p2 0x82 pay = .p2SyncRead pay)
theorem Laws.OpcodeRoundTrip.p2SyncWrite (pay : List Byte) : Laws.OpcodeRoundTrip.Statement (.p2SyncWrite pay) :=
  fun _ => (rfl : decodeOp .p2 0x83 pay = .p2SyncWrite pay)
theorem Laws.OpcodeRoundTrip.p2BulkRead (pay : List Byte) : Laws.OpcodeRoundTrip.Statement (.p2BulkRead pay) :=
  fun _ => (rfl : decodeOp .p2 0x92 pay = .p2BulkRead pay)
theorem Laws.OpcodeRoundTrip.p2BulkWrite (pay : List Byte) : Laws.OpcodeRoundTrip.Statement (.p2BulkWrite pay) :=
  fun _ => (rfl : decodeOp .p2 0x93 pay = .p2BulkWrite pay)
theorem Laws.OpcodeRoundTrip.p2Unknown (opc : Byte) (pay : List Byte) :
    Laws.OpcodeRoundTrip.Statement (.p2Unknown opc pay) := fun h =>
  decodeOp_p2_unknown opc pay (by simpa [Instr.wf, Instr.opcodeOk] using (Bool.and_eq_true_iff.1 h).2)

end Sys2Proof
end

