-- ==== Sys2Proof/Laws/Decode.lean ====
section
/-! SUPPORT. What the opcode map answers, said once (30_encoding.md R49). -/

namespace Sys2Proof

open Sys2Proof.Machine

theorem decodeKey_low (p : Proto) : ∀ opc : Byte, (decodeKey p opc).setWidth 8 = opc := by
  cases p <;> decide

theorem decodeKey_high (p : Proto) : ∀ opc : Byte, (decodeKey p opc).getLsbD 8 = decide (p = .p2) := by
  cases p <;> decide

/-- A key names one protocol and one opcode. -/
theorem decodeKey_injective (p q : Proto) (a b : Byte) (h : decodeKey p a = decodeKey q b) : p = q ∧ a = b := by
  refine ⟨?_, by rw [← decodeKey_low p a, h, decodeKey_low q b]⟩
  have := decodeKey_high p a
  rw [h, decodeKey_high q b] at this
  cases p <;> cases q <;> simp_all

/-- What a row of the map carries: its key is that of its instruction, whose payload is the one given. -/
theorem rows_sound : ∀ r ∈ p1Rows ++ p2Rows, ∀ pay : List Byte,
    r.1 = decodeKey (r.2 pay).proto (r.2 pay).opcode ∧ (r.2 pay).payload = pay ∧ (r.2 pay).opcodeOk = true := by
  intro r hr pay
  fin_cases hr <;> exact ⟨by simp only [Instr.proto, Instr.opcode]; decide, rfl, rfl⟩

theorem mem_of_lookup {β : Type} (k : BitVec 9) (v : β) (l : List (BitVec 9 × β)) (h : l.lookup k = some v) :
    (k, v) ∈ l := by
  induction l with
  | nil => simp at h
  | cons e l ih =>
    obtain ⟨k', v'⟩ := e
    simp only [List.lookup] at h
    split at h
    · rename_i hk
      have hk' : k = k' := by simpa using hk
      have hv : v' = v := by simpa using h
      simp [hk', hv]
    · exact List.mem_cons_of_mem _ (ih h)

/-- Everything the opcode map answers: an instruction of the given protocol, opcode and payload, whose opcode is its
own. -/
theorem decodeOp_sound (p : Proto) (opc : Byte) (pay : List Byte) :
    (decodeOp p opc pay).proto = p ∧ (decodeOp p opc pay).opcode = opc ∧ (decodeOp p opc pay).payload = pay ∧
      (decodeOp p opc pay).opcodeOk = true := by
  rcases hk : (p1Rows ++ p2Rows).lookup (decodeKey p opc) with _ | row
  · have hd : decodeOp p opc pay = unknownRow p opc pay := by simp only [decodeOp, hk]
    rw [hd]
    cases p
    · refine ⟨rfl, rfl, rfl, ?_⟩
      rcases hc : p1Opcodes.contains opc with _ | _
      · simp only [unknownRow, Instr.opcodeOk, hc, Bool.not_false]
      · have : ∀ o : Byte, p1Opcodes.contains o = true →
            ((p1Rows ++ p2Rows).lookup (decodeKey .p1 o)).isSome = true := by decide
        have h := this opc hc
        rw [hk] at h
        cases h
    · refine ⟨rfl, rfl, rfl, ?_⟩
      rcases hc : p2Opcodes.contains opc with _ | _
      · simp only [unknownRow, Instr.opcodeOk, hc, Bool.not_false]
      · have : ∀ o : Byte, p2Opcodes.contains o = true →
            ((p1Rows ++ p2Rows).lookup (decodeKey .p2 o)).isSome = true := by decide
        have h := this opc hc
        rw [hk] at h
        cases h
  · have hd : decodeOp p opc pay = row pay := by simp only [decodeOp, hk]
    obtain ⟨h1, h2, h3⟩ := rows_sound _ (mem_of_lookup _ _ _ hk) pay
    obtain ⟨hp, ho⟩ := decodeKey_injective _ _ _ _ h1
    rw [hd]
    exact ⟨hp.symm, ho.symm, h2, h3⟩

/-- The opcode map gives a well-formed instruction back (all constructors of `OpcodeRoundTrip`). -/
theorem decodeOp_of_wf (i : Instr) (h : i.wf = true) : decodeOp i.proto i.opcode i.payload = i := by
  cases i
  case p1Unknown opc pay => exact Laws.OpcodeRoundTrip.p1Unknown opc pay h
  case p2Unknown opc pay => exact Laws.OpcodeRoundTrip.p2Unknown opc pay h
  all_goals simp only [Instr.proto, Instr.opcode, Instr.payload]; rfl

end Sys2Proof
end

