-- ==== Sys2Proof/Laws/Memory.lean ====
section
/-! SUPPORT. The laws of sparse storage: read after write, the canonical form, and what both memories of the block get
from them (20_memory.md R31, R35). -/

namespace Sys2Proof.Machine

section
variable {α : Type} (d : α)

/-- Every key of a list is above `k`. -/
theorem sparseRead_of_above (m : List (Nat × α)) (k : Nat) (h : ∀ e ∈ m, k < e.1) : sparseRead d m k = d := by
  induction m with
  | nil => rfl
  | cons e t ih =>
    have hk : e.1 ≠ k := fun he => absurd (h e (by simp)) (by omega)
    have := ih fun e' he' => h e' (by simp [he'])
    simpa [sparseRead, hk] using this

variable [DecidableEq α]

/-- The canonical form, unfolded once. -/
theorem sparseWf_cons (k : Nat) (v : α) (t : List (Nat × α)) :
    sparseWf d ((k, v) :: t) = true ↔ v ≠ d ∧ (∀ e ∈ t, k < e.1) ∧ sparseWf d t = true := by
  simp [sparseWf, and_assoc]

theorem sparseCell_above (k k' : Nat) (v : α) (h : k < k') : ∀ e ∈ sparseCell d k' v, k < e.1 := by
  unfold sparseCell; split <;> simp [h]

/-- A write lists no key but its own and those that were there. -/
theorem sparseWrite_keys (m : List (Nat × α)) (k : Nat) (v : α) (e : Nat × α) (he : e ∈ sparseWrite d m k v) :
    e = (k, v) ∨ e ∈ m := by
  induction m with
  | nil => unfold sparseWrite sparseCell at he; split at he <;> simp_all
  | cons f t ih =>
    obtain ⟨k', v'⟩ := f
    unfold sparseWrite at he
    split at he
    · unfold sparseCell at he; split at he <;> simp_all
    · split at he
      · unfold sparseCell at he; split at he <;> (simp_all; try tauto)
      · rcases List.mem_cons.1 he with h | h
        · exact .inr (by simp [h])
        · rcases ih h with h | h
          · exact .inl h
          · exact .inr (by simp [h])

/-- A cell put before higher keys keeps the canonical form. -/
theorem sparseWf_cell_append (k : Nat) (v : α) (t : List (Nat × α)) (hk : ∀ e ∈ t, k < e.1)
    (ht : sparseWf d t = true) : sparseWf d (sparseCell d k v ++ t) = true := by
  unfold sparseCell
  split
  · simpa using ht
  · rename_i hv
    exact (sparseWf_cons d k v t).2 ⟨hv, hk, ht⟩

/-- A write keeps the canonical form. -/
theorem sparseWf_write (m : List (Nat × α)) (k : Nat) (v : α) (h : sparseWf d m = true) :
    sparseWf d (sparseWrite d m k v) = true := by
  induction m with
  | nil => simpa [sparseWrite] using sparseWf_cell_append d k v [] (by simp) rfl
  | cons f t ih =>
    obtain ⟨k', v'⟩ := f
    obtain ⟨hv', hk', ht⟩ := (sparseWf_cons d k' v' t).1 h
    unfold sparseWrite
    split
    · rename_i hlt
      refine sparseWf_cell_append d k v _ ?_ h
      intro e he
      rcases List.mem_cons.1 he with rfl | he
      · exact hlt
      · exact Nat.lt_trans hlt (hk' e he)
    · split
      · rename_i heq
        subst heq
        exact sparseWf_cell_append d k v t hk' ht
      · refine (sparseWf_cons d k' v' _).2 ⟨hv', ?_, ih ht⟩
        intro e he
        rcases sparseWrite_keys d t k v e he with rfl | he
        · simp only; omega
        · exact hk' e he

/-- Reading through a cell put before higher keys. -/
theorem sparseRead_cell_append (k j : Nat) (v : α) (t : List (Nat × α)) (hk : ∀ e ∈ t, k < e.1) :
    sparseRead d (sparseCell d k v ++ t) j = if j = k then v else sparseRead d t j := by
  unfold sparseCell
  split
  · rename_i hv
    split
    · rename_i hj
      subst hj hv
      simpa using sparseRead_of_above _ t j hk
    · simp
  · by_cases hj : j = k
    · simp [sparseRead, hj]
    · simp [sparseRead, hj, Ne.symm hj]

/-- Read after write: the written key gives the value, every other key what it gave before. -/
theorem sparseRead_write (m : List (Nat × α)) (k j : Nat) (v : α) (h : sparseWf d m = true) :
    sparseRead d (sparseWrite d m k v) j = if j = k then v else sparseRead d m j := by
  induction m with
  | nil => simpa [sparseWrite, sparseRead] using sparseRead_cell_append d k j v [] (by simp)
  | cons f t ih =>
    obtain ⟨k', v'⟩ := f
    obtain ⟨-, hk', ht⟩ := (sparseWf_cons d k' v' t).1 h
    unfold sparseWrite
    split
    · rename_i hlt
      apply sparseRead_cell_append
      intro e he
      rcases List.mem_cons.1 he with rfl | he
      · exact hlt
      · exact Nat.lt_trans hlt (hk' e he)
    · split
      · rename_i heq
        subst heq
        rw [sparseRead_cell_append d k j v t hk']
        by_cases hj : j = k
        · simp [hj]
        · simp [hj, sparseRead, Ne.symm hj]
      · rename_i h1 h2
        by_cases hj : k' = j
        · subst hj
          simp [sparseRead, Ne.symm h2]
        · simp [sparseRead, hj, ih ht]

end

/-! ### The payload buffer and the bulk map -/

@[simp] theorem Memory.read_nil (i : Nat) : Memory.read [] i = 0 := rfl

theorem Memory.read_write (m : Memory) (i j : Nat) (b : Byte) (h : m.wf = true) :
    (m.write i b).read j = if j = i then b else m.read j := sparseRead_write 0 m i j b h

theorem Memory.wf_write (m : Memory) (i : Nat) (b : Byte) (h : m.wf = true) : (m.write i b).wf = true :=
  sparseWf_write 0 m i b h

@[simp] theorem Memory.wf_nil : Memory.wf [] = true := rfl

@[simp] theorem BulkMap.read_nil (id : Byte) : BulkMap.read [] id = BulkEntry.empty := rfl

@[simp] theorem BulkMap.wf_nil : BulkMap.wf [] = true := rfl

theorem BulkMap.read_write (m : BulkMap) (id j : Byte) (e : BulkEntry) (h : m.wf = true) :
    (m.write id e).read j = if j = id then e else m.read j := by
  have h' : sparseWf BulkEntry.empty m = true := by
    simp only [BulkMap.wf, Bool.and_eq_true] at h
    exact h.1
  have := sparseRead_write BulkEntry.empty m id.toNat j.toNat e h'
  simpa [BulkMap.read, BulkMap.write, BitVec.toNat_inj] using this

theorem BulkMap.wf_write (m : BulkMap) (id : Byte) (e : BulkEntry) (h : m.wf = true) : (m.write id e).wf = true := by
  simp only [BulkMap.wf, Bool.and_eq_true, List.all_eq_true, decide_eq_true_eq] at h ⊢
  refine ⟨sparseWf_write _ m _ e h.1, fun f hf => ?_⟩
  rcases sparseWrite_keys _ m _ e f hf with rfl | hf
  · exact id.isLt
  · exact h.2 f hf

/-- The state after reset holds both memories in their canonical form. -/
theorem reset_memories_wf : State.reset.buf.wf = true ∧ State.reset.bulk.wf = true := ⟨rfl, rfl⟩


end Sys2Proof.Machine
end

