-- ==== Sys2Proof/Laws/State.lean ====
section
/-! SUPPORT. One lemma for each field and each named update of the state (Machine/Ops.lean). -/

namespace Sys2Proof.Machine

@[simp] theorem State.goto_par (s : State) (f : FsmState) : (s.goto f).par = s.par := rfl
@[simp] theorem State.goto_cfg (s : State) (f : FsmState) : (s.goto f).cfg = s.cfg := rfl
@[simp] theorem State.goto_cfgErr (s : State) (f : FsmState) : (s.goto f).cfgErr = s.cfgErr := rfl
@[simp] theorem State.goto_st (s : State) (f : FsmState) : (s.goto f).st = f := rfl
@[simp] theorem State.goto_proto (s : State) (f : FsmState) : (s.goto f).proto = s.proto := rfl
@[simp] theorem State.goto_hid (s : State) (f : FsmState) : (s.goto f).hid = s.hid := rfl
@[simp] theorem State.goto_id (s : State) (f : FsmState) : (s.goto f).id = s.id := rfl
@[simp] theorem State.goto_len (s : State) (f : FsmState) : (s.goto f).len = s.len := rfl
@[simp] theorem State.goto_opc (s : State) (f : FsmState) : (s.goto f).opc = s.opc := rfl
@[simp] theorem State.goto_buf (s : State) (f : FsmState) : (s.goto f).buf = s.buf := rfl
@[simp] theorem State.goto_bcnt (s : State) (f : FsmState) : (s.goto f).bcnt = s.bcnt := rfl
@[simp] theorem State.goto_sum (s : State) (f : FsmState) : (s.goto f).sum = s.sum := rfl
@[simp] theorem State.goto_crc (s : State) (f : FsmState) : (s.goto f).crc = s.crc := rfl
@[simp] theorem State.goto_rxLo (s : State) (f : FsmState) : (s.goto f).rxLo = s.rxLo := rfl
@[simp] theorem State.goto_tStart (s : State) (f : FsmState) : (s.goto f).tStart = s.tStart := rfl
@[simp] theorem State.goto_tPre2 (s : State) (f : FsmState) : (s.goto f).tPre2 = s.tPre2 := rfl
@[simp] theorem State.goto_tLastS (s : State) (f : FsmState) : (s.goto f).tLastS = s.tLastS := rfl
@[simp] theorem State.goto_tLastE (s : State) (f : FsmState) : (s.goto f).tLastE = s.tLastE := rfl
@[simp] theorem State.goto_lastOpc (s : State) (f : FsmState) : (s.goto f).lastOpc = s.lastOpc := rfl
@[simp] theorem State.goto_lastOpcV (s : State) (f : FsmState) : (s.goto f).lastOpcV = s.lastOpcV := rfl
@[simp] theorem State.goto_lastReg (s : State) (f : FsmState) : (s.goto f).lastReg = s.lastReg := rfl
@[simp] theorem State.goto_lastCnt (s : State) (f : FsmState) : (s.goto f).lastCnt = s.lastCnt := rfl
@[simp] theorem State.goto_lastRegV (s : State) (f : FsmState) : (s.goto f).lastRegV = s.lastRegV := rfl
@[simp] theorem State.goto_bulk (s : State) (f : FsmState) : (s.goto f).bulk = s.bulk := rfl
@[simp] theorem State.goto_input (s : State) (f : FsmState) : (s.goto f).input = s.input := rfl
@[simp] theorem State.goto_cur (s : State) (f : FsmState) : (s.goto f).cur = s.cur := rfl
@[simp] theorem State.goto_out (s : State) (f : FsmState) : (s.goto f).out = s.out := rfl

@[simp] theorem State.frameReset_par (s : State) : s.frameReset.par = s.par := rfl
@[simp] theorem State.frameReset_cfg (s : State) : s.frameReset.cfg = s.cfg := rfl
@[simp] theorem State.frameReset_cfgErr (s : State) : s.frameReset.cfgErr = s.cfgErr := rfl
@[simp] theorem State.frameReset_st (s : State) : s.frameReset.st = .idle := rfl
@[simp] theorem State.frameReset_proto (s : State) : s.frameReset.proto = none := rfl
@[simp] theorem State.frameReset_hid (s : State) : s.frameReset.hid = 0 := rfl
@[simp] theorem State.frameReset_id (s : State) : s.frameReset.id = 0 := rfl
@[simp] theorem State.frameReset_len (s : State) : s.frameReset.len = 0 := rfl
@[simp] theorem State.frameReset_opc (s : State) : s.frameReset.opc = 0 := rfl
@[simp] theorem State.frameReset_buf (s : State) : s.frameReset.buf = s.buf := rfl
@[simp] theorem State.frameReset_bcnt (s : State) : s.frameReset.bcnt = 0 := rfl
@[simp] theorem State.frameReset_sum (s : State) : s.frameReset.sum = 0 := rfl
@[simp] theorem State.frameReset_crc (s : State) : s.frameReset.crc = 0 := rfl
@[simp] theorem State.frameReset_rxLo (s : State) : s.frameReset.rxLo = 0 := rfl
@[simp] theorem State.frameReset_tStart (s : State) : s.frameReset.tStart = 0 := rfl
@[simp] theorem State.frameReset_tPre2 (s : State) : s.frameReset.tPre2 = 0 := rfl
@[simp] theorem State.frameReset_tLastS (s : State) : s.frameReset.tLastS = s.tLastS := rfl
@[simp] theorem State.frameReset_tLastE (s : State) : s.frameReset.tLastE = s.tLastE := rfl
@[simp] theorem State.frameReset_lastOpc (s : State) : s.frameReset.lastOpc = s.lastOpc := rfl
@[simp] theorem State.frameReset_lastOpcV (s : State) : s.frameReset.lastOpcV = s.lastOpcV := rfl
@[simp] theorem State.frameReset_lastReg (s : State) : s.frameReset.lastReg = s.lastReg := rfl
@[simp] theorem State.frameReset_lastCnt (s : State) : s.frameReset.lastCnt = s.lastCnt := rfl
@[simp] theorem State.frameReset_lastRegV (s : State) : s.frameReset.lastRegV = s.lastRegV := rfl
@[simp] theorem State.frameReset_bulk (s : State) : s.frameReset.bulk = s.bulk := rfl
@[simp] theorem State.frameReset_input (s : State) : s.frameReset.input = s.input := rfl
@[simp] theorem State.frameReset_cur (s : State) : s.frameReset.cur = s.cur := rfl
@[simp] theorem State.frameReset_out (s : State) : s.frameReset.out = s.out := rfl

@[simp] theorem State.emit_par (s : State) (f : Record) : (s.emit f).par = s.par := rfl
@[simp] theorem State.emit_cfg (s : State) (f : Record) : (s.emit f).cfg = s.cfg := rfl
@[simp] theorem State.emit_cfgErr (s : State) (f : Record) : (s.emit f).cfgErr = s.cfgErr := rfl
@[simp] theorem State.emit_st (s : State) (f : Record) : (s.emit f).st = s.st := rfl
@[simp] theorem State.emit_proto (s : State) (f : Record) : (s.emit f).proto = s.proto := rfl
@[simp] theorem State.emit_hid (s : State) (f : Record) : (s.emit f).hid = s.hid := rfl
@[simp] theorem State.emit_id (s : State) (f : Record) : (s.emit f).id = s.id := rfl
@[simp] theorem State.emit_len (s : State) (f : Record) : (s.emit f).len = s.len := rfl
@[simp] theorem State.emit_opc (s : State) (f : Record) : (s.emit f).opc = s.opc := rfl
@[simp] theorem State.emit_buf (s : State) (f : Record) : (s.emit f).buf = s.buf := rfl
@[simp] theorem State.emit_bcnt (s : State) (f : Record) : (s.emit f).bcnt = s.bcnt := rfl
@[simp] theorem State.emit_sum (s : State) (f : Record) : (s.emit f).sum = s.sum := rfl
@[simp] theorem State.emit_crc (s : State) (f : Record) : (s.emit f).crc = s.crc := rfl
@[simp] theorem State.emit_rxLo (s : State) (f : Record) : (s.emit f).rxLo = s.rxLo := rfl
@[simp] theorem State.emit_tStart (s : State) (f : Record) : (s.emit f).tStart = s.tStart := rfl
@[simp] theorem State.emit_tPre2 (s : State) (f : Record) : (s.emit f).tPre2 = s.tPre2 := rfl
@[simp] theorem State.emit_tLastS (s : State) (f : Record) : (s.emit f).tLastS = s.tLastS := rfl
@[simp] theorem State.emit_tLastE (s : State) (f : Record) : (s.emit f).tLastE = s.tLastE := rfl
@[simp] theorem State.emit_lastOpc (s : State) (f : Record) : (s.emit f).lastOpc = s.lastOpc := rfl
@[simp] theorem State.emit_lastOpcV (s : State) (f : Record) : (s.emit f).lastOpcV = s.lastOpcV := rfl
@[simp] theorem State.emit_lastReg (s : State) (f : Record) : (s.emit f).lastReg = s.lastReg := rfl
@[simp] theorem State.emit_lastCnt (s : State) (f : Record) : (s.emit f).lastCnt = s.lastCnt := rfl
@[simp] theorem State.emit_lastRegV (s : State) (f : Record) : (s.emit f).lastRegV = s.lastRegV := rfl
@[simp] theorem State.emit_bulk (s : State) (f : Record) : (s.emit f).bulk = s.bulk := rfl
@[simp] theorem State.emit_input (s : State) (f : Record) : (s.emit f).input = s.input := rfl
@[simp] theorem State.emit_cur (s : State) (f : Record) : (s.emit f).cur = s.cur := rfl
@[simp] theorem State.emit_out (s : State) (f : Record) : (s.emit f).out = some f := rfl

@[simp] theorem State.present_par (s : State) (b : ByteEvent) (rest : List ByteEvent) : (s.present b rest).par = s.par := rfl
@[simp] theorem State.present_cfg (s : State) (b : ByteEvent) (rest : List ByteEvent) : (s.present b rest).cfg = s.cfg := rfl
@[simp] theorem State.present_cfgErr (s : State) (b : ByteEvent) (rest : List ByteEvent) : (s.present b rest).cfgErr = s.cfgErr := rfl
@[simp] theorem State.present_st (s : State) (b : ByteEvent) (rest : List ByteEvent) : (s.present b rest).st = s.st := rfl
@[simp] theorem State.present_proto (s : State) (b : ByteEvent) (rest : List ByteEvent) : (s.present b rest).proto = s.proto := rfl
@[simp] theorem State.present_hid (s : State) (b : ByteEvent) (rest : List ByteEvent) : (s.present b rest).hid = s.hid := rfl
@[simp] theorem State.present_id (s : State) (b : ByteEvent) (rest : List ByteEvent) : (s.present b rest).id = s.id := rfl
@[simp] theorem State.present_len (s : State) (b : ByteEvent) (rest : List ByteEvent) : (s.present b rest).len = s.len := rfl
@[simp] theorem State.present_opc (s : State) (b : ByteEvent) (rest : List ByteEvent) : (s.present b rest).opc = s.opc := rfl
@[simp] theorem State.present_buf (s : State) (b : ByteEvent) (rest : List ByteEvent) : (s.present b rest).buf = s.buf := rfl
@[simp] theorem State.present_bcnt (s : State) (b : ByteEvent) (rest : List ByteEvent) : (s.present b rest).bcnt = s.bcnt := rfl
@[simp] theorem State.present_sum (s : State) (b : ByteEvent) (rest : List ByteEvent) : (s.present b rest).sum = s.sum := rfl
@[simp] theorem State.present_crc (s : State) (b : ByteEvent) (rest : List ByteEvent) : (s.present b rest).crc = s.crc := rfl
@[simp] theorem State.present_rxLo (s : State) (b : ByteEvent) (rest : List ByteEvent) : (s.present b rest).rxLo = s.rxLo := rfl
@[simp] theorem State.present_tStart (s : State) (b : ByteEvent) (rest : List ByteEvent) : (s.present b rest).tStart = s.tStart := rfl
@[simp] theorem State.present_tPre2 (s : State) (b : ByteEvent) (rest : List ByteEvent) : (s.present b rest).tPre2 = s.tPre2 := rfl
@[simp] theorem State.present_tLastS (s : State) (b : ByteEvent) (rest : List ByteEvent) : (s.present b rest).tLastS = s.tLastS := rfl
@[simp] theorem State.present_tLastE (s : State) (b : ByteEvent) (rest : List ByteEvent) : (s.present b rest).tLastE = s.tLastE := rfl
@[simp] theorem State.present_lastOpc (s : State) (b : ByteEvent) (rest : List ByteEvent) : (s.present b rest).lastOpc = s.lastOpc := rfl
@[simp] theorem State.present_lastOpcV (s : State) (b : ByteEvent) (rest : List ByteEvent) : (s.present b rest).lastOpcV = s.lastOpcV := rfl
@[simp] theorem State.present_lastReg (s : State) (b : ByteEvent) (rest : List ByteEvent) : (s.present b rest).lastReg = s.lastReg := rfl
@[simp] theorem State.present_lastCnt (s : State) (b : ByteEvent) (rest : List ByteEvent) : (s.present b rest).lastCnt = s.lastCnt := rfl
@[simp] theorem State.present_lastRegV (s : State) (b : ByteEvent) (rest : List ByteEvent) : (s.present b rest).lastRegV = s.lastRegV := rfl
@[simp] theorem State.present_bulk (s : State) (b : ByteEvent) (rest : List ByteEvent) : (s.present b rest).bulk = s.bulk := rfl
@[simp] theorem State.present_input (s : State) (b : ByteEvent) (rest : List ByteEvent) : (s.present b rest).input = rest := rfl
@[simp] theorem State.present_cur (s : State) (b : ByteEvent) (rest : List ByteEvent) : (s.present b rest).cur = b := rfl
@[simp] theorem State.present_out (s : State) (b : ByteEvent) (rest : List ByteEvent) : (s.present b rest).out = none := rfl

@[simp] theorem State.setLastByte_par (s : State) (b : ByteEvent) : (s.setLastByte b).par = s.par := rfl
@[simp] theorem State.setLastByte_cfg (s : State) (b : ByteEvent) : (s.setLastByte b).cfg = s.cfg := rfl
@[simp] theorem State.setLastByte_cfgErr (s : State) (b : ByteEvent) : (s.setLastByte b).cfgErr = s.cfgErr := rfl
@[simp] theorem State.setLastByte_st (s : State) (b : ByteEvent) : (s.setLastByte b).st = s.st := rfl
@[simp] theorem State.setLastByte_proto (s : State) (b : ByteEvent) : (s.setLastByte b).proto = s.proto := rfl
@[simp] theorem State.setLastByte_hid (s : State) (b : ByteEvent) : (s.setLastByte b).hid = s.hid := rfl
@[simp] theorem State.setLastByte_id (s : State) (b : ByteEvent) : (s.setLastByte b).id = s.id := rfl
@[simp] theorem State.setLastByte_len (s : State) (b : ByteEvent) : (s.setLastByte b).len = s.len := rfl
@[simp] theorem State.setLastByte_opc (s : State) (b : ByteEvent) : (s.setLastByte b).opc = s.opc := rfl
@[simp] theorem State.setLastByte_buf (s : State) (b : ByteEvent) : (s.setLastByte b).buf = s.buf := rfl
@[simp] theorem State.setLastByte_bcnt (s : State) (b : ByteEvent) : (s.setLastByte b).bcnt = s.bcnt := rfl
@[simp] theorem State.setLastByte_sum (s : State) (b : ByteEvent) : (s.setLastByte b).sum = s.sum := rfl
@[simp] theorem State.setLastByte_crc (s : State) (b : ByteEvent) : (s.setLastByte b).crc = s.crc := rfl
@[simp] theorem State.setLastByte_rxLo (s : State) (b : ByteEvent) : (s.setLastByte b).rxLo = s.rxLo := rfl
@[simp] theorem State.setLastByte_tStart (s : State) (b : ByteEvent) : (s.setLastByte b).tStart = s.tStart := rfl
@[simp] theorem State.setLastByte_tPre2 (s : State) (b : ByteEvent) : (s.setLastByte b).tPre2 = s.tPre2 := rfl
@[simp] theorem State.setLastByte_tLastS (s : State) (b : ByteEvent) : (s.setLastByte b).tLastS = b.ts := rfl
@[simp] theorem State.setLastByte_tLastE (s : State) (b : ByteEvent) : (s.setLastByte b).tLastE = b.te := rfl
@[simp] theorem State.setLastByte_lastOpc (s : State) (b : ByteEvent) : (s.setLastByte b).lastOpc = s.lastOpc := rfl
@[simp] theorem State.setLastByte_lastOpcV (s : State) (b : ByteEvent) : (s.setLastByte b).lastOpcV = s.lastOpcV := rfl
@[simp] theorem State.setLastByte_lastReg (s : State) (b : ByteEvent) : (s.setLastByte b).lastReg = s.lastReg := rfl
@[simp] theorem State.setLastByte_lastCnt (s : State) (b : ByteEvent) : (s.setLastByte b).lastCnt = s.lastCnt := rfl
@[simp] theorem State.setLastByte_lastRegV (s : State) (b : ByteEvent) : (s.setLastByte b).lastRegV = s.lastRegV := rfl
@[simp] theorem State.setLastByte_bulk (s : State) (b : ByteEvent) : (s.setLastByte b).bulk = s.bulk := rfl
@[simp] theorem State.setLastByte_input (s : State) (b : ByteEvent) : (s.setLastByte b).input = s.input := rfl
@[simp] theorem State.setLastByte_cur (s : State) (b : ByteEvent) : (s.setLastByte b).cur = s.cur := rfl
@[simp] theorem State.setLastByte_out (s : State) (b : ByteEvent) : (s.setLastByte b).out = s.out := rfl

@[simp] theorem State.setLastOpc_par (s : State) (o : Byte) : (s.setLastOpc o).par = s.par := rfl
@[simp] theorem State.setLastOpc_cfg (s : State) (o : Byte) : (s.setLastOpc o).cfg = s.cfg := rfl
@[simp] theorem State.setLastOpc_cfgErr (s : State) (o : Byte) : (s.setLastOpc o).cfgErr = s.cfgErr := rfl
@[simp] theorem State.setLastOpc_st (s : State) (o : Byte) : (s.setLastOpc o).st = s.st := rfl
@[simp] theorem State.setLastOpc_proto (s : State) (o : Byte) : (s.setLastOpc o).proto = s.proto := rfl
@[simp] theorem State.setLastOpc_hid (s : State) (o : Byte) : (s.setLastOpc o).hid = s.hid := rfl
@[simp] theorem State.setLastOpc_id (s : State) (o : Byte) : (s.setLastOpc o).id = s.id := rfl
@[simp] theorem State.setLastOpc_len (s : State) (o : Byte) : (s.setLastOpc o).len = s.len := rfl
@[simp] theorem State.setLastOpc_opc (s : State) (o : Byte) : (s.setLastOpc o).opc = s.opc := rfl
@[simp] theorem State.setLastOpc_buf (s : State) (o : Byte) : (s.setLastOpc o).buf = s.buf := rfl
@[simp] theorem State.setLastOpc_bcnt (s : State) (o : Byte) : (s.setLastOpc o).bcnt = s.bcnt := rfl
@[simp] theorem State.setLastOpc_sum (s : State) (o : Byte) : (s.setLastOpc o).sum = s.sum := rfl
@[simp] theorem State.setLastOpc_crc (s : State) (o : Byte) : (s.setLastOpc o).crc = s.crc := rfl
@[simp] theorem State.setLastOpc_rxLo (s : State) (o : Byte) : (s.setLastOpc o).rxLo = s.rxLo := rfl
@[simp] theorem State.setLastOpc_tStart (s : State) (o : Byte) : (s.setLastOpc o).tStart = s.tStart := rfl
@[simp] theorem State.setLastOpc_tPre2 (s : State) (o : Byte) : (s.setLastOpc o).tPre2 = s.tPre2 := rfl
@[simp] theorem State.setLastOpc_tLastS (s : State) (o : Byte) : (s.setLastOpc o).tLastS = s.tLastS := rfl
@[simp] theorem State.setLastOpc_tLastE (s : State) (o : Byte) : (s.setLastOpc o).tLastE = s.tLastE := rfl
@[simp] theorem State.setLastOpc_lastOpc (s : State) (o : Byte) : (s.setLastOpc o).lastOpc = o := rfl
@[simp] theorem State.setLastOpc_lastOpcV (s : State) (o : Byte) : (s.setLastOpc o).lastOpcV = true := rfl
@[simp] theorem State.setLastOpc_lastReg (s : State) (o : Byte) : (s.setLastOpc o).lastReg = s.lastReg := rfl
@[simp] theorem State.setLastOpc_lastCnt (s : State) (o : Byte) : (s.setLastOpc o).lastCnt = s.lastCnt := rfl
@[simp] theorem State.setLastOpc_lastRegV (s : State) (o : Byte) : (s.setLastOpc o).lastRegV = s.lastRegV := rfl
@[simp] theorem State.setLastOpc_bulk (s : State) (o : Byte) : (s.setLastOpc o).bulk = s.bulk := rfl
@[simp] theorem State.setLastOpc_input (s : State) (o : Byte) : (s.setLastOpc o).input = s.input := rfl
@[simp] theorem State.setLastOpc_cur (s : State) (o : Byte) : (s.setLastOpc o).cur = s.cur := rfl
@[simp] theorem State.setLastOpc_out (s : State) (o : Byte) : (s.setLastOpc o).out = s.out := rfl

@[simp] theorem State.setLastRead_par (s : State) (a c : Half) : (s.setLastRead a c).par = s.par := rfl
@[simp] theorem State.setLastRead_cfg (s : State) (a c : Half) : (s.setLastRead a c).cfg = s.cfg := rfl
@[simp] theorem State.setLastRead_cfgErr (s : State) (a c : Half) : (s.setLastRead a c).cfgErr = s.cfgErr := rfl
@[simp] theorem State.setLastRead_st (s : State) (a c : Half) : (s.setLastRead a c).st = s.st := rfl
@[simp] theorem State.setLastRead_proto (s : State) (a c : Half) : (s.setLastRead a c).proto = s.proto := rfl
@[simp] theorem State.setLastRead_hid (s : State) (a c : Half) : (s.setLastRead a c).hid = s.hid := rfl
@[simp] theorem State.setLastRead_id (s : State) (a c : Half) : (s.setLastRead a c).id = s.id := rfl
@[simp] theorem State.setLastRead_len (s : State) (a c : Half) : (s.setLastRead a c).len = s.len := rfl
@[simp] theorem State.setLastRead_opc (s : State) (a c : Half) : (s.setLastRead a c).opc = s.opc := rfl
@[simp] theorem State.setLastRead_buf (s : State) (a c : Half) : (s.setLastRead a c).buf = s.buf := rfl
@[simp] theorem State.setLastRead_bcnt (s : State) (a c : Half) : (s.setLastRead a c).bcnt = s.bcnt := rfl
@[simp] theorem State.setLastRead_sum (s : State) (a c : Half) : (s.setLastRead a c).sum = s.sum := rfl
@[simp] theorem State.setLastRead_crc (s : State) (a c : Half) : (s.setLastRead a c).crc = s.crc := rfl
@[simp] theorem State.setLastRead_rxLo (s : State) (a c : Half) : (s.setLastRead a c).rxLo = s.rxLo := rfl
@[simp] theorem State.setLastRead_tStart (s : State) (a c : Half) : (s.setLastRead a c).tStart = s.tStart := rfl
@[simp] theorem State.setLastRead_tPre2 (s : State) (a c : Half) : (s.setLastRead a c).tPre2 = s.tPre2 := rfl
@[simp] theorem State.setLastRead_tLastS (s : State) (a c : Half) : (s.setLastRead a c).tLastS = s.tLastS := rfl
@[simp] theorem State.setLastRead_tLastE (s : State) (a c : Half) : (s.setLastRead a c).tLastE = s.tLastE := rfl
@[simp] theorem State.setLastRead_lastOpc (s : State) (a c : Half) : (s.setLastRead a c).lastOpc = s.lastOpc := rfl
@[simp] theorem State.setLastRead_lastOpcV (s : State) (a c : Half) : (s.setLastRead a c).lastOpcV = s.lastOpcV := rfl
@[simp] theorem State.setLastRead_lastReg (s : State) (a c : Half) : (s.setLastRead a c).lastReg = a := rfl
@[simp] theorem State.setLastRead_lastCnt (s : State) (a c : Half) : (s.setLastRead a c).lastCnt = c := rfl
@[simp] theorem State.setLastRead_lastRegV (s : State) (a c : Half) : (s.setLastRead a c).lastRegV = true := rfl
@[simp] theorem State.setLastRead_bulk (s : State) (a c : Half) : (s.setLastRead a c).bulk = s.bulk := rfl
@[simp] theorem State.setLastRead_input (s : State) (a c : Half) : (s.setLastRead a c).input = s.input := rfl
@[simp] theorem State.setLastRead_cur (s : State) (a c : Half) : (s.setLastRead a c).cur = s.cur := rfl
@[simp] theorem State.setLastRead_out (s : State) (a c : Half) : (s.setLastRead a c).out = s.out := rfl

@[simp] theorem State.setBulk_par (s : State) (m : BulkMap) : (s.setBulk m).par = s.par := rfl
@[simp] theorem State.setBulk_cfg (s : State) (m : BulkMap) : (s.setBulk m).cfg = s.cfg := rfl
@[simp] theorem State.setBulk_cfgErr (s : State) (m : BulkMap) : (s.setBulk m).cfgErr = s.cfgErr := rfl
@[simp] theorem State.setBulk_st (s : State) (m : BulkMap) : (s.setBulk m).st = s.st := rfl
@[simp] theorem State.setBulk_proto (s : State) (m : BulkMap) : (s.setBulk m).proto = s.proto := rfl
@[simp] theorem State.setBulk_hid (s : State) (m : BulkMap) : (s.setBulk m).hid = s.hid := rfl
@[simp] theorem State.setBulk_id (s : State) (m : BulkMap) : (s.setBulk m).id = s.id := rfl
@[simp] theorem State.setBulk_len (s : State) (m : BulkMap) : (s.setBulk m).len = s.len := rfl
@[simp] theorem State.setBulk_opc (s : State) (m : BulkMap) : (s.setBulk m).opc = s.opc := rfl
@[simp] theorem State.setBulk_buf (s : State) (m : BulkMap) : (s.setBulk m).buf = s.buf := rfl
@[simp] theorem State.setBulk_bcnt (s : State) (m : BulkMap) : (s.setBulk m).bcnt = s.bcnt := rfl
@[simp] theorem State.setBulk_sum (s : State) (m : BulkMap) : (s.setBulk m).sum = s.sum := rfl
@[simp] theorem State.setBulk_crc (s : State) (m : BulkMap) : (s.setBulk m).crc = s.crc := rfl
@[simp] theorem State.setBulk_rxLo (s : State) (m : BulkMap) : (s.setBulk m).rxLo = s.rxLo := rfl
@[simp] theorem State.setBulk_tStart (s : State) (m : BulkMap) : (s.setBulk m).tStart = s.tStart := rfl
@[simp] theorem State.setBulk_tPre2 (s : State) (m : BulkMap) : (s.setBulk m).tPre2 = s.tPre2 := rfl
@[simp] theorem State.setBulk_tLastS (s : State) (m : BulkMap) : (s.setBulk m).tLastS = s.tLastS := rfl
@[simp] theorem State.setBulk_tLastE (s : State) (m : BulkMap) : (s.setBulk m).tLastE = s.tLastE := rfl
@[simp] theorem State.setBulk_lastOpc (s : State) (m : BulkMap) : (s.setBulk m).lastOpc = s.lastOpc := rfl
@[simp] theorem State.setBulk_lastOpcV (s : State) (m : BulkMap) : (s.setBulk m).lastOpcV = s.lastOpcV := rfl
@[simp] theorem State.setBulk_lastReg (s : State) (m : BulkMap) : (s.setBulk m).lastReg = s.lastReg := rfl
@[simp] theorem State.setBulk_lastCnt (s : State) (m : BulkMap) : (s.setBulk m).lastCnt = s.lastCnt := rfl
@[simp] theorem State.setBulk_lastRegV (s : State) (m : BulkMap) : (s.setBulk m).lastRegV = s.lastRegV := rfl
@[simp] theorem State.setBulk_bulk (s : State) (m : BulkMap) : (s.setBulk m).bulk = m := rfl
@[simp] theorem State.setBulk_input (s : State) (m : BulkMap) : (s.setBulk m).input = s.input := rfl
@[simp] theorem State.setBulk_cur (s : State) (m : BulkMap) : (s.setBulk m).cur = s.cur := rfl
@[simp] theorem State.setBulk_out (s : State) (m : BulkMap) : (s.setBulk m).out = s.out := rfl

/-- The cause of an abort leaves no trace (60_exceptions.md R110). -/
@[simp] theorem State.abort_eq (s : State) (c : AbortCause) : s.abort c = s.frameReset := rfl

@[simp] theorem noteOpcode_par (mn : Mnemonic) (o : Byte) (s : State) : (noteOpcode mn o s).par = s.par := by
  unfold noteOpcode; split <;> rfl
@[simp] theorem noteOpcode_cfg (mn : Mnemonic) (o : Byte) (s : State) : (noteOpcode mn o s).cfg = s.cfg := by
  unfold noteOpcode; split <;> rfl
@[simp] theorem noteOpcode_cfgErr (mn : Mnemonic) (o : Byte) (s : State) : (noteOpcode mn o s).cfgErr = s.cfgErr := by
  unfold noteOpcode; split <;> rfl
@[simp] theorem noteOpcode_st (mn : Mnemonic) (o : Byte) (s : State) : (noteOpcode mn o s).st = s.st := by
  unfold noteOpcode; split <;> rfl
@[simp] theorem noteOpcode_proto (mn : Mnemonic) (o : Byte) (s : State) : (noteOpcode mn o s).proto = s.proto := by
  unfold noteOpcode; split <;> rfl
@[simp] theorem noteOpcode_hid (mn : Mnemonic) (o : Byte) (s : State) : (noteOpcode mn o s).hid = s.hid := by
  unfold noteOpcode; split <;> rfl
@[simp] theorem noteOpcode_id (mn : Mnemonic) (o : Byte) (s : State) : (noteOpcode mn o s).id = s.id := by
  unfold noteOpcode; split <;> rfl
@[simp] theorem noteOpcode_len (mn : Mnemonic) (o : Byte) (s : State) : (noteOpcode mn o s).len = s.len := by
  unfold noteOpcode; split <;> rfl
@[simp] theorem noteOpcode_opc (mn : Mnemonic) (o : Byte) (s : State) : (noteOpcode mn o s).opc = s.opc := by
  unfold noteOpcode; split <;> rfl
@[simp] theorem noteOpcode_buf (mn : Mnemonic) (o : Byte) (s : State) : (noteOpcode mn o s).buf = s.buf := by
  unfold noteOpcode; split <;> rfl
@[simp] theorem noteOpcode_bcnt (mn : Mnemonic) (o : Byte) (s : State) : (noteOpcode mn o s).bcnt = s.bcnt := by
  unfold noteOpcode; split <;> rfl
@[simp] theorem noteOpcode_sum (mn : Mnemonic) (o : Byte) (s : State) : (noteOpcode mn o s).sum = s.sum := by
  unfold noteOpcode; split <;> rfl
@[simp] theorem noteOpcode_crc (mn : Mnemonic) (o : Byte) (s : State) : (noteOpcode mn o s).crc = s.crc := by
  unfold noteOpcode; split <;> rfl
@[simp] theorem noteOpcode_rxLo (mn : Mnemonic) (o : Byte) (s : State) : (noteOpcode mn o s).rxLo = s.rxLo := by
  unfold noteOpcode; split <;> rfl
@[simp] theorem noteOpcode_tStart (mn : Mnemonic) (o : Byte) (s : State) : (noteOpcode mn o s).tStart = s.tStart := by
  unfold noteOpcode; split <;> rfl
@[simp] theorem noteOpcode_tPre2 (mn : Mnemonic) (o : Byte) (s : State) : (noteOpcode mn o s).tPre2 = s.tPre2 := by
  unfold noteOpcode; split <;> rfl
@[simp] theorem noteOpcode_tLastS (mn : Mnemonic) (o : Byte) (s : State) : (noteOpcode mn o s).tLastS = s.tLastS := by
  unfold noteOpcode; split <;> rfl
@[simp] theorem noteOpcode_tLastE (mn : Mnemonic) (o : Byte) (s : State) : (noteOpcode mn o s).tLastE = s.tLastE := by
  unfold noteOpcode; split <;> rfl
@[simp] theorem noteOpcode_lastReg (mn : Mnemonic) (o : Byte) (s : State) : (noteOpcode mn o s).lastReg = s.lastReg := by
  unfold noteOpcode; split <;> rfl
@[simp] theorem noteOpcode_lastCnt (mn : Mnemonic) (o : Byte) (s : State) : (noteOpcode mn o s).lastCnt = s.lastCnt := by
  unfold noteOpcode; split <;> rfl
@[simp] theorem noteOpcode_lastRegV (mn : Mnemonic) (o : Byte) (s : State) : (noteOpcode mn o s).lastRegV = s.lastRegV := by
  unfold noteOpcode; split <;> rfl
@[simp] theorem noteOpcode_bulk (mn : Mnemonic) (o : Byte) (s : State) : (noteOpcode mn o s).bulk = s.bulk := by
  unfold noteOpcode; split <;> rfl
@[simp] theorem noteOpcode_input (mn : Mnemonic) (o : Byte) (s : State) : (noteOpcode mn o s).input = s.input := by
  unfold noteOpcode; split <;> rfl
@[simp] theorem noteOpcode_cur (mn : Mnemonic) (o : Byte) (s : State) : (noteOpcode mn o s).cur = s.cur := by
  unfold noteOpcode; split <;> rfl
@[simp] theorem noteOpcode_out (mn : Mnemonic) (o : Byte) (s : State) : (noteOpcode mn o s).out = s.out := by
  unfold noteOpcode; split <;> rfl

/-- A Response notes nothing (44_dispatch.md R82). -/
theorem noteOpcode_response (o : Byte) (s : State) : noteOpcode .response o s = s := rfl

/-- Every other frame notes its opcode (44_dispatch.md R82). -/
theorem noteOpcode_request (mn : Mnemonic) (o : Byte) (s : State) (h : mn ≠ .response) :
    noteOpcode mn o s = s.setLastOpc o := by simp [noteOpcode, h]

end Sys2Proof.Machine
end

