-- ==== Sys2Proof/Laws/Ops.lean ====
section
/-! SUPPORT. What each shared operation can do, said once: outcomes, the payload buffer, the running checks, the
register walk, the Bulk Read writes, and the dispatch of a frame. -/

namespace Sys2Proof.Machine

/-! ### Outcomes -/

@[simp] theorem mapNext_next (f : State → State) (s : State) : mapNext f (.next s) = .next (f s) := rfl

/-- A mapped outcome is a next state exactly when the outcome was one. -/
theorem mapNext_eq_next (f : State → State) (o : Outcome) (t : State) :
    mapNext f o = .next t ↔ ∃ u, o = .next u ∧ t = f u := by
  cases o <;> simp [mapNext, eq_comm]

/-! ### The payload buffer -/

/-- Everything an append can do when it goes on. -/
theorem bufAppend_next (s t : State) (v : Byte) (h : bufAppend s v = .next t) :
    s.bcnt.toNat < s.par.payloadCap ∧ t = { s with buf := s.buf.write s.bcnt.toNat v, bcnt := s.bcnt + 1 } := by
  unfold bufAppend at h
  split at h
  · exact ⟨‹_›, by simpa using h.symm⟩
  · cases h

theorem bufAppend_of_room (s : State) (v : Byte) (h : s.bcnt.toNat < s.par.payloadCap) :
    bufAppend s v = .next { s with buf := s.buf.write s.bcnt.toNat v, bcnt := s.bcnt + 1 } := by
  simp [bufAppend, h]

@[simp] theorem bufBytes_length (m : Memory) (n : Nat) : (bufBytes m n).length = n := by simp [bufBytes]

@[simp] theorem bufBytes_zero (m : Memory) : bufBytes m 0 = [] := rfl

@[simp] theorem payloadOf_length (s : State) : (payloadOf s).length = s.bcnt.toNat := bufBytes_length _ _

/-- Appending at the end of the buffered bytes appends to the list. -/
theorem bufBytes_write_end (m : Memory) (n : Nat) (v : Byte) (h : m.wf = true) :
    bufBytes (m.write n v) (n + 1) = bufBytes m n ++ [v] := by
  simp only [bufBytes, List.range_succ, List.map_append, List.map_cons, List.map_nil]
  congr 1
  · refine List.map_congr_left fun i hi => ?_
    rw [Memory.read_write m n i v h, if_neg (by have := List.mem_range.1 hi; omega)]
  · rw [Memory.read_write m n n v h, if_pos rfl]

theorem fetchPayload_of_fits (s : State) (h : s.bcnt.toNat ≤ s.par.payloadCap) :
    fetchPayload s = .ok (payloadOf s) := by simp [fetchPayload, h]

theorem fetchPayload_ok (s : State) (pay : List Byte) (h : fetchPayload s = .ok pay) :
    s.bcnt.toNat ≤ s.par.payloadCap ∧ pay = payloadOf s := by
  unfold fetchPayload at h
  split at h
  · exact ⟨‹_›, by simpa using h.symm⟩
  · cases h

/-! ### The running checks -/

theorem sumBytes_append (s : Byte) (l : List Byte) (b : Byte) : sumBytes s (l ++ [b]) = sumBytes s l + b := by
  induction l generalizing s with
  | nil => rfl
  | cons x l ih => exact ih (s + x)

theorem crcBytes_append (c : Half) (l : List Byte) (b : Byte) : crcBytes c (l ++ [b]) = crcUpd (crcBytes c l) b := by
  induction l generalizing c with
  | nil => rfl
  | cons x l ih => exact ih (crcUpd c x)

/-! ### The register walk -/

theorem Width.bytes_pos (w : Width) : 1 ≤ w.bytes := by cases w <;> decide

theorem Width.bytes_le (w : Width) : w.bytes ≤ 4 := by cases w <;> decide

/-- Every item takes a byte at least where there is one. -/
theorem takenBytes_pos (par : Params) (fam : Family) (a : Half) (n : Nat) (h : 1 ≤ n) :
    1 ≤ takenBytes par fam a n := le_min (Width.bytes_pos _) h

theorem takenBytes_le (par : Params) (fam : Family) (a : Half) (n : Nat) : takenBytes par fam a n ≤ n := min_le_right _ _

/-- Fuel beyond the number of bytes left changes nothing. -/
theorem walkLoop_fuel (par : Params) (fam : Family) (n m : Nat) (a : Half) (d : List Byte)
    (hn : d.length ≤ n) (hm : d.length ≤ m) : walkLoop par fam n a d = walkLoop par fam m a d := by
  induction n generalizing m a d with
  | zero =>
    obtain rfl : d = [] := by simpa using hn
    cases m <;> rfl
  | succ n ih =>
    cases d with
    | nil => cases m <;> rfl
    | cons b d =>
      cases m with
      | zero => simp at hm
      | succ m =>
        have hpos := takenBytes_pos par fam a (b :: d).length (by simp)
        simp only [walkLoop]
        congr 1
        apply ih <;> simp only [List.length_drop] <;> simp only [List.length_cons] at hpos hn hm ⊢ <;> omega

/-! ### Bulk Read's writes -/

theorem bulkReadWrites_cons (m : BulkMap) (sid a0 a1 c0 c1 : Byte) (rest : List Byte) :
    bulkReadWrites m (sid :: a0 :: a1 :: c0 :: c1 :: rest) =
      bulkReadWrites (m.write sid { v := true, reg := le16 a0 a1, cnt := le16 c0 c1 }) rest := by
  rw [bulkReadWrites]

/-- Whatever every single map write keeps, a Bulk Read keeps. -/
theorem bulkReadWrites_induct (P : BulkMap → Prop)
    (hw : ∀ m sid a c, P m → P (m.write sid { v := true, reg := a, cnt := c })) (pay : List Byte) (m : BulkMap)
    (h : P m) : P (bulkReadWrites m pay) := by
  induction m, pay using bulkReadWrites.induct with
  | case1 m sid a0 a1 c0 c1 rest ih => rw [bulkReadWrites_cons]; exact ih (hw _ _ _ _ h)
  | case2 m l hl => rw [bulkReadWrites]; exacts [h, hl]

/-- The writes of a Bulk Read keep the map's canonical form. -/
theorem bulkReadWrites_wf (m : BulkMap) (pay : List Byte) (h : m.wf = true) : (bulkReadWrites m pay).wf = true :=
  bulkReadWrites_induct (fun m => m.wf = true) (fun m sid _ _ hm => BulkMap.wf_write m sid _ hm) pay m h

/-- The writes of a Bulk Read list valid entries only. -/
theorem bulkReadWrites_valid (m : BulkMap) (pay : List Byte) (h : ∀ e ∈ m, e.2.v = true) :
    ∀ e ∈ bulkReadWrites m pay, e.2.v = true :=
  bulkReadWrites_induct (fun m => ∀ e ∈ m, e.2.v = true)
    (fun m _ _ _ hm e he => by
      rcases sparseWrite_keys _ m _ _ e he with rfl | he
      · rfl
      · exact hm e he) pay m h

/-! ### Dispatch -/

/-- What the handler of an instruction may write before the frame's end: nothing, the last Read's registers in a
well-formed Read, or the map in a Bulk Read (44_dispatch.md R81). -/
inductive HandlerWrites (i : Instr) (s : State) (res : HandlerResult) : State → Prop where
  | none : HandlerWrites i s res s
  | read (a c : Half) (hm : i.mnemonic = .read) (hk : res.kindOf = .read) : HandlerWrites i s res (s.setLastRead a c)
  | bulk (hm : i.mnemonic = .bulkRead) : HandlerWrites i s res (s.setBulk (bulkReadWrites s.bulk i.payload))

/-- Every instruction ends its frame: its outcome is the dispatch of its handler's result, after that handler's own
writes. -/
theorem exec_dispatches (i : Instr) (s : State) :
    ∃ res u, HandlerWrites i s res u ∧
      exec i s = dispatchFrame i.proto i.mnemonic i.opcode i.payload res u := by
  have hread : ∀ p opc pay (i : Instr), i.mnemonic = .read → ∃ res u, HandlerWrites i s res u ∧
      readFrame p opc pay s = dispatchFrame p .read opc pay res u := by
    intro p opc pay i hm
    unfold readFrame
    split
    · exact ⟨_, s, .none, rfl⟩
    · rename_i a c _ _
      exact ⟨_, _, .read a c hm rfl, rfl⟩
  cases i
  case p1Read pay => exact hread .p1 0x02 pay (.p1Read pay) rfl
  case p2Read pay => exact hread .p2 0x02 pay (.p2Read pay) rfl
  case p1BulkRead pay => exact ⟨_, _, .bulk rfl, rfl⟩
  case p2BulkRead pay => exact ⟨_, _, .bulk rfl, rfl⟩
  all_goals exact ⟨_, s, .none, rfl⟩

/-- No instruction stops the machine. -/
theorem exec_next (i : Instr) (s : State) : ∃ t, exec i s = .next t := by
  obtain ⟨res, u, -, h⟩ := exec_dispatches i s
  exact ⟨_, h⟩

end Sys2Proof.Machine
end

