-- ==== Sys2Proof/Laws/Step.lean ====
section
/-! SUPPORT. What a step can do, said once (40_frame_sync.md R55). -/

namespace Sys2Proof.Machine

theorem step_of_cfgErr (s : State) (h : s.cfgErr = true) : step s = .fault .configError := by
  simp [step, blockStep, h]

theorem step_of_no_input (s : State) (h : s.cfgErr = false) (hi : s.input = []) : step s = .next s := by
  simp [step, blockStep, h, hi]

theorem step_of_event (s : State) (b : ByteEvent) (rest : List ByteEvent) (h : s.cfgErr = false)
    (hi : s.input = b :: rest) :
    step s = mapNext (fun t => t.setLastByte b) (handleByte (monitor (s.present b rest))) := by
  simp [step, blockStep, h, hi, byteStep]

/-- Everything a step that goes on can have done. -/
theorem step_cases (s t : State) (h : step s = .next t) :
    s.cfgErr = false ∧ ((s.input = [] ∧ t = s) ∨
      ∃ b rest u, s.input = b :: rest ∧ handleByte (monitor (s.present b rest)) = .next u ∧ t = u.setLastByte b) := by
  have hc : s.cfgErr = false := by
    rcases hb : s.cfgErr with _ | _
    · rfl
    · rw [step_of_cfgErr s hb] at h; cases h
  refine ⟨hc, ?_⟩
  rcases hi : s.input with _ | ⟨b, rest⟩
  · rw [step_of_no_input s hc hi] at h
    exact .inl ⟨rfl, by simpa using h.symm⟩
  · rw [step_of_event s b rest hc hi, mapNext_eq_next] at h
    obtain ⟨u, hu, rfl⟩ := h
    exact .inr ⟨b, rest, u, rfl, hu, rfl⟩

/-- The monitor either leaves the state or resets the framing registers of a state that is not idle. -/
theorem monitor_cases (s : State) :
    (monitor s = s ∧ (s.st = .idle ∨ timedOut s = false)) ∨
      (monitor s = s.frameReset ∧ s.st ≠ .idle ∧ timedOut s = true) := by
  unfold monitor
  split
  · rename_i h
    exact .inr ⟨rfl, h⟩
  · rename_i h
    refine .inl ⟨rfl, ?_⟩
    by_cases hs : s.st = .idle
    · exact .inl hs
    · exact .inr (by simpa [hs] using h)

/-- The trailer step runs the decoded instruction, where the payload lies within the buffer. -/
theorem trailerByte_of_fits (p : Proto) (s : State) (h : s.bcnt.toNat ≤ s.par.payloadCap) :
    trailerByte p s = exec (decodeOp p s.opc (payloadOf s)) s := by
  simp [trailerByte, decodeAt, fetchPayload_of_fits s h]

theorem trailerByte_next (p : Proto) (s t : State) (h : trailerByte p s = .next t) :
    s.bcnt.toNat ≤ s.par.payloadCap ∧ exec (decodeOp p s.opc (payloadOf s)) s = .next t := by
  by_cases hb : s.bcnt.toNat ≤ s.par.payloadCap
  · exact ⟨hb, by rwa [trailerByte_of_fits p s hb] at h⟩
  · simp [trailerByte, decodeAt, fetchPayload, hb] at h

end Sys2Proof.Machine
end

