-- ==== Sys2Proof/Laws/Frames.lean ====
section
/-! SUPPORT. What the byte step's parts do, in the terms that statements use: the timeout monitor, the end of a frame,
and the steps that are no trailer (43_timeout_monitor.md R76 to R78, 44_dispatch.md R81, R82). -/

namespace Sys2Proof.Machine

/-! ### The monitor -/

/-- The monitor's test on the event at the port is the statements' `Late`. -/
theorem timedOut_iff_late (s : State) (b : ByteEvent) (rest : List ByteEvent) :
    timedOut (s.present b rest) = true ↔ Late s b := by
  rcases s with ⟨⟨tw, k, mode, cap, regs, sel⟩⟩
  cases mode <;> simp [timedOut, Late, LateAfter, byteGap, byteDuration, State.present]

theorem monitor_of_idle (s : State) (b : ByteEvent) (rest : List ByteEvent) (h : s.st = .idle) :
    monitor (s.present b rest) = s.present b rest := by
  simp [monitor, State.present, h]

theorem monitor_of_in_time (s : State) (b : ByteEvent) (rest : List ByteEvent) (h : ¬ Late s b) :
    monitor (s.present b rest) = s.present b rest := by
  rw [← timedOut_iff_late s b rest] at h
  simp [monitor, h]

theorem monitor_of_late (s : State) (b : ByteEvent) (rest : List ByteEvent) (hs : s.st ≠ .idle) (h : Late s b) :
    monitor (s.present b rest) = (s.present b rest).frameReset := by
  rw [← timedOut_iff_late s b rest] at h
  rw [monitor, if_pos ⟨hs, h⟩]
  rfl

/-! ### Table selection -/

/-- The selection's test of an exception is the statements' `TabApplies`. -/
theorem ruleApplies_iff_tabApplies (p : Proto) (s : State) (r : TabRule) :
    ruleApplies p s.cfg s.id r = true ↔ TabApplies p s r := by
  simp [ruleApplies, TabApplies, and_assoc]

/-! ### The end of a frame -/

/-- The record that a dispatch presents is that of the frame. -/
theorem frameRecord_recordOf (p : Proto) (mn : Mnemonic) (opc : Byte) (pay : List Byte) (res : HandlerResult)
    (s : State) : RecordOf p mn opc pay s (frameRecord p mn opc pay res s) := by
  have hchk : ∀ x : Byte, (checksumOf x).toNat = 255 - x.toNat := by
    intro x
    simp [checksumOf]
  have hle : ∀ lo hi : Byte, (le16 lo hi).toNat = lo.toNat + 256 * hi.toNat := by
    intro lo hi
    have h1 := lo.isLt
    have h2 := hi.isLt
    rw [le16_eq, BitVec.toNat_ofNat]
    omega
  cases p <;> simp [RecordOf, frameRecord, chkExp, chkAct, chkOk, hchk, hle]

/-- Everything an instruction does: it ends the frame, presents the record of its handler's result, notes its opcode
unless it is a Response, and leaves the correlation registers as its handler left them. -/
theorem exec_ends (i : Instr) (s : State) :
    ∃ res u t, HandlerWrites i s res u ∧ exec i s = .next t ∧ FrameEnded s t ∧
      t.out = some (frameRecord i.proto i.mnemonic i.opcode i.payload res s) ∧
      (if i.mnemonic = .response then LastOpcKept s t else LastOpcIs i.opcode t) ∧
      t.lastReg = u.lastReg ∧ t.lastCnt = u.lastCnt ∧ t.lastRegV = u.lastRegV ∧ t.bulk = u.bulk := by
  obtain ⟨res, u, hw, he⟩ := exec_dispatches i s
  refine ⟨res, u, _, hw, he, ?_⟩
  have hu : u = s ∨ (∃ a c, u = s.setLastRead a c) ∨ ∃ m, u = s.setBulk m := by
    cases hw with
    | none => exact .inl rfl
    | read a c => exact .inr (.inl ⟨a, c, rfl⟩)
    | bulk => exact .inr (.inr ⟨_, rfl⟩)
  rcases hu with rfl | ⟨a, c, rfl⟩ | ⟨m, rfl⟩ <;> by_cases hm : i.mnemonic = .response <;>
    simp [hm, noteOpcode, FrameEnded, FramingReset, FixedKept, BufferKept, LastOpcIs, LastOpcKept] <;> rfl

/-! ### The steps that are no trailer -/

/-- What no handler but the trailer's changes. -/
structure Quiet (s t : State) : Prop where
  out : t.out = s.out
  input : t.input = s.input
  cur : t.cur = s.cur
  lastOpc : LastOpcKept s t
  lastRead : LastReadKept s t
  bulk : t.bulk = s.bulk
  tLastS : t.tLastS = s.tLastS
  tLastE : t.tLastE = s.tLastE
  fixed : FixedKept s t

/-- Every handler either is quiet or runs the received frame's instruction. -/
theorem handleByte_cases (s t : State) (h : handleByte s = .next t) :
    Quiet s t ∨ ∃ p, s.st = (match p with
        | Proto.p1 => FsmState.p1Chk
        | .p2 => .p2Crc2) ∧ exec (decodeOp p s.opc (payloadOf s)) s = .next t := by
  unfold handleByte at h
  rcases hs : s.st <;> simp only [hs] at h
  case p1Chk => exact .inr ⟨.p1, rfl, (trailerByte_next _ _ _ h).2⟩
  case p2Crc2 => exact .inr ⟨.p2, rfl, (trailerByte_next _ _ _ h).2⟩
  all_goals refine .inl ?_
  case p1Data =>
    rw [p1DataByte, mapNext_eq_next] at h
    obtain ⟨u, hu, rfl⟩ := h
    obtain ⟨-, rfl⟩ := bufAppend_next _ _ _ hu
    constructor <;> simp [LastOpcKept, LastReadKept, FixedKept, p1DataNext]
  case p2Data =>
    rw [p2DataByte, mapNext_eq_next] at h
    obtain ⟨u, hu, rfl⟩ := h
    obtain ⟨-, rfl⟩ := bufAppend_next _ _ _ hu
    constructor <;> simp [LastOpcKept, LastReadKept, FixedKept, p2DataNext]
  all_goals
    injection h with h
    subst h
  case idle => unfold idleByte; split <;> constructor <;> simp [LastOpcKept, LastReadKept, FixedKept]
  case pre2 => unfold pre2Byte; split <;> constructor <;> simp [LastOpcKept, LastReadKept, FixedKept, State.abort]
  case rid => unfold ridByte; split <;> constructor <;> simp [LastOpcKept, LastReadKept, FixedKept]
  case rlen1 =>
    unfold rlen1Byte
    simp only
    split_ifs <;> constructor <;> simp [LastOpcKept, LastReadKept, FixedKept, State.abort]
  case p2Len2 =>
    unfold p2Len2Byte
    simp only
    split_ifs <;> constructor <;> simp [LastOpcKept, LastReadKept, FixedKept, State.abort]
  all_goals
    constructor <;>
      simp [LastOpcKept, LastReadKept, FixedKept, p1InstByte, p2IdByte, p2Len1Byte, p2InstByte, p2Crc1Byte]

end Sys2Proof.Machine
end

