-- ==== Sys2Proof/Laws/Operands.lean ====
section
/-! SUPPORT. The operand forms, said once: each list form as one equation per shape of the payload, with the fuel of
its loop gone (30_encoding.md R51, 44_dispatch.md R85, 45_requests.md R101, R102). -/

namespace Sys2Proof.Machine

/-- The walk, item by item: the register at the address, then the walk of the bytes after it. -/
theorem walk_cons (par : Params) (fam : Family) (a : Half) (d : List Byte) (hd : d ≠ []) :
    walk par fam a d = walkItem par fam a d ::
      walk par fam (a + BitVec.ofNat 16 (takenBytes par fam a d.length))
        (d.drop (takenBytes par fam a d.length)) := by
  cases d with
  | nil => exact absurd rfl hd
  | cons b d =>
    have hpos := takenBytes_pos par fam a (d.length + 1) (by omega)
    rw [walk, List.length_cons, walkLoop, walk]
    · congr 1
      apply walkLoop_fuel <;> simp only [List.length_drop, List.length_cons] <;> omega
    · simp

/-- Fuel beyond the number of bytes left changes no chunk. -/
theorem syncChunksLoop_fuel (par : Params) (fam : Family) (a : Half) (c n m : Nat) (pay : List Byte)
    (hn : pay.length ≤ n) (hm : pay.length ≤ m) :
    syncChunksLoop par fam a c n pay = syncChunksLoop par fam a c m pay := by
  induction n generalizing m pay with
  | zero =>
    obtain rfl : pay = [] := by simpa using hn
    cases m <;> rfl
  | succ n ih =>
    cases pay with
    | nil => cases m <;> rfl
    | cons sid rest =>
      cases m with
      | zero => simp at hm
      | succ m =>
        simp only [List.length_cons] at hn hm
        simp only [syncChunksLoop]
        rw [ih m (rest.drop c) (by simp only [List.length_drop]; omega) (by simp only [List.length_drop]; omega)]

/-- A Sync Write's chunks, one at a time: an ID and `c` value bytes, or a truncation. -/
theorem syncChunks_cons (par : Params) (fam : Family) (a c : Half) (sid : Byte) (rest : List Byte) :
    syncChunks par fam a c (sid :: rest) =
      if rest.length < c.toNat then .error .syncwChunk
      else
        match syncChunks par fam a c (rest.drop c.toNat) with
        | .error e => .error e
        | .ok chunks => .ok ({ sid, items := walk par fam a (rest.take c.toNat) } :: chunks) := by
  simp only [syncChunks]
  rw [← syncChunksLoop_fuel par fam a c.toNat rest.length (rest.drop c.toNat).length (rest.drop c.toNat)
    (by simp only [List.length_drop]; omega) (le_refl _)]
  rfl

/-- Fuel beyond the number of bytes left changes no entry. -/
theorem bulkWriteLoop_fuel (par : Params) (fam : Family) (n m : Nat) (pay : List Byte) (hn : pay.length ≤ n)
    (hm : pay.length ≤ m) : bulkWriteLoop par fam n pay = bulkWriteLoop par fam m pay := by
  induction n generalizing m pay with
  | zero =>
    obtain rfl : pay = [] := by simpa using hn
    cases m <;> rfl
  | succ n ih =>
    cases m with
    | zero =>
      obtain rfl : pay = [] := by simpa using hm
      rfl
    | succ m =>
      match pay, hn, hm with
      | [], _, _ => rfl
      | [_], _, _ => rfl
      | [_, _], _, _ => rfl
      | [_, _, _], _, _ => rfl
      | [_, _, _, _], _, _ => rfl
      | sid :: a0 :: a1 :: c0 :: c1 :: rest, hn, hm =>
        simp only [List.length_cons] at hn hm
        simp only [bulkWriteLoop]
        rw [ih m (rest.drop (le16 c0 c1).toNat) (by simp only [List.length_drop]; omega)
          (by simp only [List.length_drop]; omega)]

/-- A Bulk Write's entries, one at a time: a header and its data, or a truncation. -/
theorem bulkWriteEntries_cons (par : Params) (fam : Family) (sid a0 a1 c0 c1 : Byte) (rest : List Byte) :
    bulkWriteEntries par fam (sid :: a0 :: a1 :: c0 :: c1 :: rest) =
      if (le16 c0 c1).toNat > rest.length then .error .bulkwData
      else
        match bulkWriteEntries par fam (rest.drop (le16 c0 c1).toNat) with
        | .error e => .error e
        | .ok entries =>
          .ok ({ sid, addr := le16 a0 a1, count := le16 c0 c1,
                 items := walk par fam (le16 a0 a1) (rest.take (le16 c0 c1).toNat) } :: entries) := by
  simp only [bulkWriteEntries]
  rw [← bulkWriteLoop_fuel par fam (rest.length + 1 + 1 + 1 + 1) (rest.drop (le16 c0 c1).toNat).length
    (rest.drop (le16 c0 c1).toNat) (by simp only [List.length_drop]; omega) (le_refl _)]
  rfl

end Sys2Proof.Machine
end

