-- ==== Sys2Proof/Tests/Slice0.lean ====
section
/-! SUPPORT. Tests of the model. Frames and expected results come from spec/45, spec/46 and spec/95 (the vector is
named), or are worked out by hand from the rule named. The `witness_` theorems show, for each statement that has
hypotheses, a state and operands that meet them. -/

open Sys2Proof Sys2Proof.Machine

/-! ### Well-formedness: an ill-formed term for each check, and the largest good one -/

theorem test_wf_p1_payload_too_long : (Instr.p1Ping (List.replicate 254 0)).wf = false := by decide +kernel
theorem test_wf_p1_payload_longest : (Instr.p1Ping (List.replicate 253 0)).wf = true := by decide +kernel
theorem test_wf_p2_payload_too_long : (Instr.p2Ping (List.replicate 65533 0)).wf = false := by
  simp only [Instr.wf, Instr.payload, Instr.proto, maxPayload, List.length_replicate]
  rfl
theorem test_wf_p1_unknown_with_a_mapped_opcode : (Instr.p1Unknown 0x92 []).wf = false := by decide
theorem test_wf_p1_unknown_clear : (Instr.p1Unknown 0x10 []).wf = true := by decide
theorem test_wf_p2_unknown_with_a_mapped_opcode : (Instr.p2Unknown 0x55 []).wf = false := by decide
theorem test_wf_p1_id_is_preamble : frameWf 0xFF (.p1Ping []) = false := by decide
theorem test_wf_p2_id_is_any_byte : frameWf 0xFF (.p2Ping []) = true := by decide

/-! ### Decoding: a frame of every constructor, written out -/

/-- The ID and instruction of a whole frame with a right check value and nothing after it. -/
def frameOf (bytes : List Byte) : Option (Byte × Instr) :=
  match decodeFrame 65532 bytes with
  | .ok d => if d.chkExp = d.chkAct ∧ d.rest = [] then some (d.id, d.instr) else none
  | .error _ => none

-- spec/46 R105, spec/45 R91 to R97, in order
theorem test_decode_p1Response :
    frameOf [0xFF, 0xFF, 0x01, 0x04, 0x00, 0x20, 0x00, 0xDA] = some (1, .p1Response [0x20, 0x00]) := by decide
theorem test_decode_p1Ping : frameOf [0xFF, 0xFF, 0x01, 0x02, 0x01, 0xFB] = some (1, .p1Ping []) := by decide
theorem test_decode_p1Read :
    frameOf [0xFF, 0xFF, 0x01, 0x04, 0x02, 0x2B, 0x01, 0xCC] = some (1, .p1Read [0x2B, 0x01]) := by decide
theorem test_decode_p1Write :
    frameOf [0xFF, 0xFF, 0x01, 0x04, 0x03, 0x03, 0x01, 0xF3] = some (1, .p1Write [0x03, 0x01]) := by decide
theorem test_decode_p1RegWrite :
    frameOf [0xFF, 0xFF, 0x01, 0x05, 0x04, 0x1E, 0x00, 0x02, 0xD5] = some (1, .p1RegWrite [0x1E, 0x00, 0x02]) := by
  decide
theorem test_decode_p1Action : frameOf [0xFF, 0xFF, 0xFE, 0x02, 0x05, 0xFA] = some (0xFE, .p1Action []) := by decide
theorem test_decode_p1FactoryReset :
    frameOf [0xFF, 0xFF, 0x00, 0x02, 0x06, 0xF7] = some (0, .p1FactoryReset []) := by decide
theorem test_decode_p1Reboot : frameOf [0xFF, 0xFF, 0x01, 0x02, 0x08, 0xF4] = some (1, .p1Reboot []) := by decide
-- spec/45 R101
theorem test_decode_p1SyncWrite :
    frameOf [0xFF, 0xFF, 0xFE, 0x09, 0x83, 0x1E, 0x02, 0x01, 0x00, 0x02, 0x02, 0x10, 0x40] =
      some (0xFE, .p1SyncWrite [0x1E, 0x02, 0x01, 0x00, 0x02, 0x02, 0x10]) := by decide
-- by hand: FE+07+92+05+1E+00+02+00 = 1BC, complement of BC = 43 (R60)
theorem test_decode_p1BulkRead :
    frameOf [0xFF, 0xFF, 0xFE, 0x07, 0x92, 0x05, 0x1E, 0x00, 0x02, 0x00, 0x43] =
      some (0xFE, .p1BulkRead [0x05, 0x1E, 0x00, 0x02, 0x00]) := by decide
-- by hand: FE+08+93+01+03+00+01+00+07 = 1A5, complement of A5 = 5A (R60)
theorem test_decode_p1BulkWrite :
    frameOf [0xFF, 0xFF, 0xFE, 0x08, 0x93, 0x01, 0x03, 0x00, 0x01, 0x00, 0x07, 0x5A] =
      some (0xFE, .p1BulkWrite [0x01, 0x03, 0x00, 0x01, 0x00, 0x07]) := by decide
-- spec/44 R89; spec/45 R98
theorem test_decode_p1Unknown :
    frameOf [0xFF, 0xFF, 0x01, 0x03, 0x07, 0xAA, 0x4A] = some (1, .p1Unknown 0x07 [0xAA]) ∧
    frameOf [0xFF, 0xFF, 0x01, 0x03, 0x10, 0x01, 0xEA] = some (1, .p1Unknown 0x10 [0x01]) := by decide
-- spec/46 R105, spec/45 R91 to R100, in order
theorem test_decode_p2Response :
    frameOf [0xFF, 0xFF, 0xFD, 0x00, 0x01, 0x07, 0x00, 0x55, 0x00, 0x06, 0x04, 0x26, 0x65, 0x5D] =
      some (1, .p2Response [0x00, 0x06, 0x04, 0x26]) := by decide
theorem test_decode_p2Ping :
    frameOf [0xFF, 0xFF, 0xFD, 0x00, 0x01, 0x03, 0x00, 0x01, 0x19, 0x4E] = some (1, .p2Ping []) := by decide
theorem test_decode_p2Read :
    frameOf [0xFF, 0xFF, 0xFD, 0x00, 0x01, 0x07, 0x00, 0x02, 0x84, 0x00, 0x04, 0x00, 0x1D, 0x15] =
      some (1, .p2Read [0x84, 0x00, 0x04, 0x00]) := by decide
theorem test_decode_p2Write :
    frameOf [0xFF, 0xFF, 0xFD, 0x00, 0x01, 0x09, 0x00, 0x03, 0x74, 0x00, 0x00, 0x02, 0x00, 0x00, 0xCA, 0x89] =
      some (1, .p2Write [0x74, 0x00, 0x00, 0x02, 0x00, 0x00]) := by decide
theorem test_decode_p2RegWrite :
    frameOf [0xFF, 0xFF, 0xFD, 0x00, 0x01, 0x09, 0x00, 0x04, 0x68, 0x00, 0xC8, 0x00, 0x00, 0x00, 0xAE, 0x8E] =
      some (1, .p2RegWrite [0x68, 0x00, 0xC8, 0x00, 0x00, 0x00]) := by decide
theorem test_decode_p2Action :
    frameOf [0xFF, 0xFF, 0xFD, 0x00, 0xFE, 0x03, 0x00, 0x05, 0x2A, 0xC2] = some (0xFE, .p2Action []) := by decide
theorem test_decode_p2FactoryReset :
    frameOf [0xFF, 0xFF, 0xFD, 0x00, 0x01, 0x04, 0x00, 0x06, 0xFF, 0xA6, 0x64] =
      some (1, .p2FactoryReset [0xFF]) := by decide
theorem test_decode_p2Reboot :
    frameOf [0xFF, 0xFF, 0xFD, 0x00, 0x01, 0x03, 0x00, 0x08, 0x2F, 0x4E] = some (1, .p2Reboot []) := by decide
theorem test_decode_p2Clear :
    frameOf [0xFF, 0xFF, 0xFD, 0x00, 0x01, 0x08, 0x00, 0x10, 0x01, 0x44, 0x58, 0x4C, 0x22, 0xB1, 0xDC] =
      some (1, .p2Clear [0x01, 0x44, 0x58, 0x4C, 0x22]) := by decide
theorem test_decode_p2Backup :
    frameOf [0xFF, 0xFF, 0xFD, 0x00, 0x01, 0x08, 0x00, 0x20, 0x01, 0x43, 0x54, 0x52, 0x4C, 0x16, 0xF5] =
      some (1, .p2Backup [0x01, 0x43, 0x54, 0x52, 0x4C]) := by decide
theorem test_decode_p2SyncRead :
    frameOf [0xFF, 0xFF, 0xFD, 0x00, 0xFE, 0x09, 0x00, 0x82, 0x84, 0x00, 0x04, 0x00, 0x01, 0x02, 0xCE, 0xFA] =
      some (0xFE, .p2SyncRead [0x84, 0x00, 0x04, 0x00, 0x01, 0x02]) := by decide
-- spec/45 R101, spec/46 R107, spec/45 R102, spec/95 L2-27
theorem test_decode_p2SyncWrite :
    frameOf [0xFF, 0xFF, 0xFD, 0x00, 0xFE, 0x11, 0x00, 0x83, 0x74, 0x00, 0x04, 0x00, 0x01, 0x96, 0x00, 0x00, 0x00,
        0x02, 0xAA, 0x00, 0x00, 0x00, 0x82, 0x87] =
      some (0xFE, .p2SyncWrite [0x74, 0x00, 0x04, 0x00, 0x01, 0x96, 0x00, 0x00, 0x00, 0x02, 0xAA, 0x00, 0x00, 0x00]) := by
  decide +kernel
theorem test_decode_p2BulkRead :
    frameOf [0xFF, 0xFF, 0xFD, 0x00, 0xFE, 0x08, 0x00, 0x92, 0x05, 0x1E, 0x00, 0x02, 0x00, 0xC4, 0xE7] =
      some (0xFE, .p2BulkRead [0x05, 0x1E, 0x00, 0x02, 0x00]) := by decide
theorem test_decode_p2BulkWrite :
    frameOf [0xFF, 0xFF, 0xFD, 0x00, 0xFE, 0x0F, 0x00, 0x93, 0x01, 0x20, 0x00, 0x01, 0x00, 0xA0, 0x02, 0x1F, 0x00,
        0x01, 0x00, 0x50, 0x20, 0x0D] =
      some (0xFE, .p2BulkWrite [0x01, 0x20, 0x00, 0x01, 0x00, 0xA0, 0x02, 0x1F, 0x00, 0x01, 0x00, 0x50]) := by decide +kernel
theorem test_decode_p2Unknown :
    frameOf [0xFF, 0xFF, 0xFD, 0x00, 0x01, 0x04, 0x00, 0x00, 0x12, 0xC8, 0x72] = some (1, .p2Unknown 0x00 [0x12]) := by
  decide

/-! ### Decoding: what is no frame (R38, R44, R45, R52) -/

theorem test_reject_no_preamble : decodeFrame 65532 [0xFF, 0x37, 0x01, 0x02, 0x01, 0xFB] = .error .noPreamble := by
  decide
theorem test_reject_preamble_run : decodeFrame 65532 [0xFF, 0xFF, 0xFF, 0x01, 0x02, 0x01, 0xFB] = .error .preambleRun := by
  decide
-- spec/95 L2-5, L2-15
theorem test_reject_short_length :
    decodeFrame 65532 [0xFF, 0xFF, 0x01, 0x01, 0x01, 0xFB] = .error .shortLength ∧
    decodeFrame 65532 [0xFF, 0xFF, 0xFD, 0x00, 0x01, 0x02, 0x00, 0x01, 0x00, 0x00] = .error .shortLength := by decide
-- spec/95 L2-7: five payload bytes in a buffer of four
theorem test_reject_overflow :
    decodeFrame 4 [0xFF, 0xFF, 0x01, 0x07, 0x03, 0x01, 0x02, 0x03, 0x04, 0x05, 0x00] = .error .overflow := by decide
theorem test_reject_incomplete : decodeFrame 65532 [0xFF, 0xFF, 0x01, 0x02, 0x01] = .error .incomplete := by decide

/-! ### The opcode table -/

/-- The 27 rows of spec/opcode_table.json by their "match" words. P1.UNKNOWN's and P2.UNKNOWN's are the words 0x000 and
0x100, which the other rows' priority gives to P1.RESPONSE and to opcode 0 of Protocol 2 (log 16). -/
theorem test_table_words_p1 :
    decodeTableWord 16 0x000 = some (.p1Response []) ∧ decodeTableWord 16 0x001 = some (.p1Ping []) ∧
    decodeTableWord 16 0x002 = some (.p1Read [0, 0]) ∧ decodeTableWord 16 0x003 = some (.p1Write [0]) ∧
    decodeTableWord 16 0x004 = some (.p1RegWrite [0]) ∧ decodeTableWord 16 0x005 = some (.p1Action []) ∧
    decodeTableWord 16 0x006 = some (.p1FactoryReset []) ∧ decodeTableWord 16 0x008 = some (.p1Reboot []) ∧
    decodeTableWord 16 0x083 = some (.p1SyncWrite [0, 0]) ∧ decodeTableWord 16 0x092 = some (.p1BulkRead []) ∧
    decodeTableWord 16 0x093 = some (.p1BulkWrite []) ∧ decodeTableWord 16 0x0FF = some (.p1Unknown 0xFF []) := by decide
theorem test_table_words_p2 :
    decodeTableWord 16 0x155 = some (.p2Response []) ∧ decodeTableWord 16 0x101 = some (.p2Ping []) ∧
    decodeTableWord 16 0x102 = some (.p2Read [0, 0, 0, 0]) ∧ decodeTableWord 16 0x103 = some (.p2Write [0, 0]) ∧
    decodeTableWord 16 0x104 = some (.p2RegWrite [0, 0]) ∧ decodeTableWord 16 0x105 = some (.p2Action []) ∧
    decodeTableWord 16 0x106 = some (.p2FactoryReset []) ∧ decodeTableWord 16 0x108 = some (.p2Reboot []) ∧
    decodeTableWord 16 0x110 = some (.p2Clear []) ∧ decodeTableWord 16 0x120 = some (.p2Backup []) ∧
    decodeTableWord 16 0x182 = some (.p2SyncRead []) ∧ decodeTableWord 16 0x183 = some (.p2SyncWrite [0, 0, 0, 0]) ∧
    decodeTableWord 16 0x192 = some (.p2BulkRead []) ∧ decodeTableWord 16 0x193 = some (.p2BulkWrite []) ∧
    decodeTableWord 16 0x100 = some (.p2Unknown 0x00 []) := by decide
theorem test_table_rows_have_distinct_keys : ((p1Rows ++ p2Rows).map Prod.fst).Pairwise (· ≠ ·) := by decide
theorem test_table_word_above_the_key : decodeTableWord 16 0x200 = none := by decide

/-! ### The codes of spec/10 R20 and spec/60 R108 to R111 -/

theorem test_codes :
    FsmState.code .idle = 0 ∧ FsmState.code .p1Chk = 6 ∧ FsmState.code .p2Crc2 = 13 ∧ protoCode (some .p2) = 2 ∧
    ErrorClass.code .truncated = 3 ∧ AbortCause.code .shortLength = 3 ∧ TruncCause.code .bulkwHdr = 6 := by decide

/-! ### One trailer step of every instruction -/

/-- The record presented by the step that consumes the trailer of a frame to ID 0, from a session reset. -/
def trailerRecord (p : Proto) (opc : Byte) (pay : List Byte) (s : State) : Option Record :=
  match step (atTrailer p opc pay s) with
  | .next t => t.out
  | _ => none

/-- Its check verdict and body. -/
def trailerBody (p : Proto) (opc : Byte) (pay : List Byte) (s : State) : Option (Bool × Body) :=
  (trailerRecord p opc pay s).map fun r => (r.chkOk, r.body)

/-- A known register of width `w`, whole. -/
def item (addr : Half) (name : String) (w : Width) (value : Value) : RegItem :=
  { addr, known := true, name := some name, width := w, taken := w.bytes, value, part := false }

/-- The state after a request with this opcode and no Read. -/
def afterRequest (opc : Byte) : State := { State.reset with lastOpc := opc, lastOpcV := true }

-- spec/95 L1-1: the record of a P1 Ping
theorem test_p1Ping :
    (trailerRecord .p1 0x01 [] State.reset).map (fun r => (r.kind, r.op, r.opc, r.chkOk, r.body)) =
      some (.ping, .ping, 0x01, true, .empty) := by decide
theorem test_p2Ping : trailerBody .p2 0x01 [] State.reset = some (true, .empty) := by decide
theorem test_p1Action : (trailerRecord .p1 0x05 [] State.reset).map (fun r => (r.kind, r.body)) = some (.action, .empty) := by
  decide
theorem test_p2Action : (trailerRecord .p2 0x05 [] State.reset).map (fun r => (r.kind, r.body)) = some (.action, .empty) := by
  decide
theorem test_p1FactoryReset :
    (trailerRecord .p1 0x06 [] State.reset).map (fun r => (r.kind, r.body)) = some (.factoryReset, .empty) := by decide
-- spec/95 L2-51: the option byte stays in the payload
theorem test_p2FactoryReset :
    (trailerRecord .p2 0x06 [0xFF] State.reset).map (fun r => (r.kind, r.payload, r.body)) =
      some (.factoryReset, [0xFF], .empty) := by decide
theorem test_p1Reboot : (trailerRecord .p1 0x08 [] State.reset).map (fun r => (r.kind, r.body)) = some (.reboot, .empty) := by
  decide
theorem test_p2Reboot : (trailerRecord .p2 0x08 [] State.reset).map (fun r => (r.kind, r.body)) = some (.reboot, .empty) := by
  decide
-- spec/45 R95
theorem test_p1Read :
    trailerBody .p1 0x02 [0x2B, 0x01] State.reset =
      some (true, .read 0x2B 1 { known := true, name := some "Present Temperature", width := .w1 }) := by decide
-- spec/60 R111: a truncated Read leaves the last Read alone and sets the last opcode
theorem test_p1Read_truncated :
    (match step (atTrailer .p1 0x02 [0x2B] State.reset) with
      | .next t => some (t.out.map (fun r => r.body), t.lastOpc, t.lastOpcV, t.lastRegV)
      | _ => none) = some (some (.error .read .read), 0x02, true, false) := by decide
theorem test_p2Read :
    trailerBody .p2 0x02 [0x84, 0x00, 0x04, 0x00] State.reset =
      some (true, .read 0x84 4 { known := true, name := some "Present Position", width := .w4 }) := by decide
-- spec/95 L2-39
theorem test_p2Read_truncated : trailerBody .p2 0x02 [0x84, 0x00, 0x04] State.reset = some (true, .error .read .read) := by
  decide
-- spec/95 L1-3
theorem test_p1Write :
    trailerBody .p1 0x03 [0x03, 0x01] State.reset =
      some (true, .write 3 { known := true, name := some "ID", width := .w1 } [item 3 "ID" .w1 1]) := by decide
-- spec/95 L2-30: the walk wraps, and its last register is cut short
theorem test_p2Write :
    trailerBody .p2 0x03 [0xFF, 0xFF, 0x11, 0x22] State.reset =
      some (true, .write 0xFFFF { known := false, name := none, width := .w1 }
        [ { addr := 0xFFFF, known := false, name := none, width := .w1, taken := 1, value := 0x11, part := false },
          { item 0 "Model Number" .w2 0x22 with taken := 1, part := true } ]) := by decide
-- spec/45 R97
theorem test_p1RegWrite :
    trailerBody .p1 0x04 [0x1E, 0x00, 0x02] State.reset =
      some (true, .write 0x1E { known := true, name := some "Goal Position", width := .w2 }
        [item 0x1E "Goal Position" .w2 0x0200]) := by decide
theorem test_p2RegWrite :
    trailerBody .p2 0x04 [0x68, 0x00, 0xC8, 0x00, 0x00, 0x00] State.reset =
      some (true, .write 0x68 { known := true, name := some "Goal Velocity", width := .w4 }
        [item 0x68 "Goal Velocity" .w4 200]) := by decide
-- spec/45 R98 to R100, spec/44 R89
theorem test_p2Clear : trailerBody .p2 0x10 [0x01, 0x44] State.reset = some (true, .raw [0x01, 0x44]) := by decide
theorem test_p2Backup : trailerBody .p2 0x20 [0x01, 0x43] State.reset = some (true, .raw [0x01, 0x43]) := by decide
theorem test_p2SyncRead :
    trailerBody .p2 0x82 [0x84, 0x00, 0x04, 0x00] State.reset = some (true, .raw [0x84, 0x00, 0x04, 0x00]) := by decide
theorem test_p1Unknown : trailerBody .p1 0x07 [0xAA] State.reset = some (true, .raw [0xAA]) := by decide
theorem test_p2Unknown : trailerBody .p2 0x00 [0x12] State.reset = some (true, .raw [0x12]) := by decide
-- spec/95 L2-61, L2-60
theorem test_p1SyncWrite :
    trailerBody .p1 0x83 [0x1E, 0x00, 0x01, 0x02, 0x03] State.reset =
      some (true, .syncWrite 0x1E 0
        [{ sid := 1, items := [] }, { sid := 2, items := [] }, { sid := 3, items := [] }]) := by decide
theorem test_p1SyncWrite_truncated :
    trailerBody .p1 0x83 [0x1E, 0x02, 0x01, 0x00, 0x02, 0x02, 0x10] State.reset =
      some (true, .error .syncwChunk .syncWrite) := by decide
-- spec/45 R101
theorem test_p2SyncWrite :
    trailerBody .p2 0x83 [0x74, 0, 4, 0, 1, 0x96, 0, 0, 0, 2, 0xAA, 0, 0, 0] State.reset =
      some (true, .syncWrite 0x74 4
        [ { sid := 1, items := [item 0x74 "Goal Position" .w4 150] },
          { sid := 2, items := [item 0x74 "Goal Position" .w4 170] } ]) := by decide +kernel
-- by hand from spec/45 R102, with the AX table: register 3 is "ID"
theorem test_p1BulkWrite :
    trailerBody .p1 0x93 [0x01, 0x03, 0x00, 0x01, 0x00, 0x07] State.reset =
      some (true, .bulkWrite [{ sid := 1, addr := 3, count := 1, items := [item 3 "ID" .w1 7] }]) := by decide
-- spec/45 R102
theorem test_p2BulkWrite :
    trailerBody .p2 0x93 [0x01, 0x20, 0x00, 0x01, 0x00, 0xA0, 0x02, 0x1F, 0x00, 0x01, 0x00, 0x50] State.reset =
      some (true, .bulkWrite
        [ { sid := 1, addr := 0x20, count := 1,
            items := [{ item 0x20 "Max Voltage Limit" .w2 0xA0 with taken := 1, part := true }] },
          { sid := 2, addr := 0x1F, count := 1, items := [item 0x1F "Temperature Limit" .w1 0x50] } ]) := by decide +kernel
theorem test_p2BulkWrite_truncated :
    trailerBody .p2 0x93 [0x01, 0x20, 0x00, 0x02, 0x00, 0xA0] State.reset =
      some (true, .error .bulkwData .bulkWrite) := by decide
-- by hand from spec/46 R103, with the AX table: register 30 is "Goal Position", 2 bytes
theorem test_p1BulkRead :
    trailerBody .p1 0x92 [0x05, 0x1E, 0x00, 0x02, 0x00] State.reset =
      some (true, .bulkRead [{ sid := 5, addr := 30, count := 2,
                               reg := { known := true, name := some "Goal Position", width := .w2 } }]) := by decide
-- spec/95 L2-67: a 2-byte tail makes an ERROR record, and the first entry's write stays
theorem test_p2BulkRead_truncated :
    (match step (atTrailer .p2 0x92 [0x01, 0x90, 0x00, 0x02, 0x00, 0x02, 0x92] State.reset) with
      | .next t => some (t.out.map (fun r => r.body), t.bulk)
      | _ => none) =
      some (some (.error .bulkrEntry .bulkRead), [(1, { v := true, reg := 0x90, cnt := 2 })]) := by decide
-- spec/95 L2-78, with the Protocol 1 status byte
theorem test_p1Response :
    trailerBody .p1 0x00 [0x20, 0x00] State.reset =
      some (true, .response { status := some (.p1Err 0x20), corr := .none, model := none, fw := none, base := none,
                              reqCount := none, items := [], data := [0x00] }) := by decide
-- spec/95 L2-69
theorem test_p2Response_ping :
    trailerBody .p2 0x55 [0x00, 0x06, 0x04, 0x26] (afterRequest 0x01) =
      some (true, .response { status := some (.p2Status false 0), corr := .ping, model := some 0x0406,
                              fw := some 0x26, base := none, reqCount := none, items := [],
                              data := [0x06, 0x04, 0x26] }) := by decide
-- spec/46 R105: the alert status, after a Read of Present Position
theorem test_p2Response_read :
    trailerBody .p2 0x55 [0x81, 0x10, 0x20, 0x30, 0x40]
        { afterRequest 0x02 with lastReg := 0x84, lastCnt := 4, lastRegV := true } =
      some (true, .response { status := some (.p2Status true 1), corr := .read, model := none, fw := none,
                              base := some 0x84, reqCount := some 4,
                              items := [item 0x84 "Present Position" .w4 0x40302010],
                              data := [0x10, 0x20, 0x30, 0x40] }) := by decide
/-! ### The byte states -/

/-- A byte that begins right when the byte before it (in a reset machine) ended. -/
def onTime (v : Byte) : ByteEvent := { v, ts := 0, te := 10 }

/-- A byte that begins 31 after the byte before it ended and lasts 10: the least late one (spec/95 L2-20). -/
def late (v : Byte) : ByteEvent := { v, ts := 31, te := 41 }

/-- A machine in a framing state, with one byte to come. -/
def inState (st : FsmState) (b : ByteEvent) : State := { State.reset with st := st, input := [b] }

/-- The framing state and the tested field after one step. -/
def stepTo {α : Type} (f : State → α) (s : State) : Option (FsmState × α) :=
  match step s with
  | .next t => some (t.st, f t)
  | _ => none

-- spec/40 R56 to R59, examples
theorem test_idle_ignores : stepTo (fun t => t.tStart) (inState .idle { v := 0x37, ts := 100, te := 110 }) = some (.idle, 0) := by
  decide
theorem test_idle_takes_preamble :
    stepTo (fun t => t.tStart) (inState .idle { v := 0xFF, ts := 100, te := 110 }) = some (.pre2, 100) := by decide
theorem test_pre2_discards : stepTo (fun t => t.tStart) (inState .pre2 (onTime 0x37)) = some (.idle, 0) := by decide
theorem test_rid_takes_id :
    stepTo (fun t => (t.hid, t.sum, t.crc)) (inState .rid (onTime 0x01)) = some (.rlen1, (1, 1, crcUpd 0x800D 0x01)) := by
  decide
theorem test_rlen1_protocol_2 :
    stepTo (fun t => t.proto) { inState .rlen1 (onTime 0x00) with hid := 0xFD } = some (.p2Id, some .p2) := by decide
theorem test_rlen1_protocol_1 :
    stepTo (fun t => (t.proto, t.id, t.len, t.sum)) { inState .rlen1 (onTime 0x02) with hid := 1, sum := 1 } =
      some (.p1Inst, (some .p1, 1, 2, 3)) := by decide
-- spec/42 R71, example
theorem test_p2Len2_short : stepTo (fun t => t.len) { inState .p2Len2 (onTime 0x00) with len := 2 } = some (.idle, 0) := by
  decide
theorem test_p2Len2_empty : stepTo (fun t => t.len) { inState .p2Len2 (onTime 0x00) with len := 3 } = some (.p2Inst, 3) := by
  decide
-- spec/43 R76, R78: a gap of exactly three byte times is in time, a longer one is late
theorem test_timeout_is_strict :
    stepTo (fun t => t.opc) { inState .p1Inst { v := 0x01, ts := 30, te := 40 } with len := 2 } = some (.p1Chk, 1) ∧
    stepTo (fun t => t.opc) { inState .p1Inst (late 0x01) with len := 2 } = some (.idle, 0) := by decide
-- spec/60 R109, example
theorem test_config_error : step (State.sessionReset defaultParams { defaultCfg with fam1 := 5 }) = .fault .configError := by
  rfl

/-! ### Witnesses: states and operands that meet the hypotheses of each statement -/

/-- A byte right after the one before it is not late. -/
theorem witness_in_time (st : FsmState) (v : Byte) : ¬ Late (inState st (onTime v)) (onTime v) := by
  simp [Late, LateAfter, inState, onTime, State.reset, State.sessionReset, defaultParams]

/-- A byte 31 after the one before it is late under the default parameters. -/
theorem witness_late (st : FsmState) (v : Byte) : Late (inState st (late v)) (late v) := by
  simp [Late, LateAfter, inState, late, State.reset, State.sessionReset, defaultParams]

theorem witness_ConfigErrorStopsEveryStep :
    (State.sessionReset defaultParams { defaultCfg with fam1 := 4 }).cfgErr = true := by decide

theorem witness_NoEventKeepsAllState : State.reset.cfgErr = false ∧ State.reset.input = [] := by decide

/-- Byte 0xFF and its neighbour. -/
theorem witness_IdleByteStep :
    (Presents (inState .idle (onTime 0xFF)) (onTime 0xFF) [] ∧ (inState .idle (onTime 0xFF)).st = .idle) ∧
    (Presents (inState .idle (onTime 0xFE)) (onTime 0xFE) [] ∧ (inState .idle (onTime 0xFE)).st = .idle) :=
  ⟨⟨⟨rfl, rfl⟩, rfl⟩, ⟨⟨rfl, rfl⟩, rfl⟩⟩

theorem witness_PreambleByteStep :
    (Presents (inState .pre2 (onTime 0xFF)) (onTime 0xFF) [] ∧ (inState .pre2 (onTime 0xFF)).st = .pre2 ∧
      ¬ Late (inState .pre2 (onTime 0xFF)) (onTime 0xFF)) ∧
    (Presents (inState .pre2 (onTime 0xFE)) (onTime 0xFE) [] ∧ (inState .pre2 (onTime 0xFE)).st = .pre2 ∧
      ¬ Late (inState .pre2 (onTime 0xFE)) (onTime 0xFE)) ∧
    (Presents (inState .pre2 (late 0xFF)) (late 0xFF) [] ∧ (inState .pre2 (late 0xFF)).st = .pre2 ∧
      Late (inState .pre2 (late 0xFF)) (late 0xFF) ∧ (late 0xFF).v = 0xFF) :=
  ⟨⟨⟨rfl, rfl⟩, rfl, witness_in_time _ _⟩, ⟨⟨rfl, rfl⟩, rfl, witness_in_time _ _⟩,
    ⟨⟨rfl, rfl⟩, rfl, witness_late _ _, rfl⟩⟩

/-- Byte 0xFF and the largest ID. -/
theorem witness_IdByteStep :
    (Presents (inState .rid (onTime 0xFF)) (onTime 0xFF) [] ∧ (inState .rid (onTime 0xFF)).st = .rid ∧
      ¬ Late (inState .rid (onTime 0xFF)) (onTime 0xFF)) ∧
    (Presents (inState .rid (onTime 0xFE)) (onTime 0xFE) [] ∧ (inState .rid (onTime 0xFE)).st = .rid ∧
      ¬ Late (inState .rid (onTime 0xFE)) (onTime 0xFE)) :=
  ⟨⟨⟨rfl, rfl⟩, rfl, witness_in_time _ _⟩, ⟨⟨rfl, rfl⟩, rfl, witness_in_time _ _⟩⟩

/-- Runs of two and of three bytes. -/
theorem witness_PreambleRunsKeepTheLastTwo :
    (State.reset.cfgErr = false ∧ State.reset.st = .idle) ∧
    (∀ b ∈ [] ++ [onTime 0xFF, { v := 0xFF, ts := 10, te := 20 }], b.v = 0xFF) ∧
    NoGaps State.reset.par ([] ++ [onTime 0xFF, { v := 0xFF, ts := 10, te := 20 }]) ∧
    NoGaps State.reset.par ([onTime 0xFF] ++ [{ v := 0xFF, ts := 10, te := 20 }, { v := 0xFF, ts := 20, te := 30 }]) := by
  simp [NoGaps, LateAfter, onTime, State.reset, State.sessionReset, defaultParams, defaultCfg, cfgInvalid]

/-- The Protocol 2 trigger, the lengths 1, 2 and 255, and a payload of one byte more than the buffer holds. -/
theorem witness_FirstLengthByteStep :
    (∀ hid v : Byte, Presents { inState .rlen1 (onTime v) with hid := hid } (onTime v) [] ∧
      ({ inState .rlen1 (onTime v) with hid := hid } : State).st = .rlen1 ∧
      ¬ Late { inState .rlen1 (onTime v) with hid := hid } (onTime v)) ∧
    (∀ cap : Nat, cap = 1 → ∀ v : Byte, v = 4 →
      Presents { inState .rlen1 (onTime v) with par := { defaultParams with payloadCap := cap } } (onTime v) [] ∧
      ¬ Late { inState .rlen1 (onTime v) with par := { defaultParams with payloadCap := cap } } (onTime v)) :=
  ⟨fun _ v => ⟨⟨rfl, rfl⟩, rfl, witness_in_time .rlen1 v⟩,
    fun _ _ v _ => ⟨⟨rfl, rfl⟩, witness_in_time .rlen1 v⟩⟩

/-- A frame without and with payload. -/
theorem witness_ProtocolOneOpcodeByteStep :
    ∀ len ∈ [(2 : Half), 3], Presents { inState .p1Inst (onTime 1) with len := len } (onTime 1) [] ∧
      ({ inState .p1Inst (onTime 1) with len := len } : State).st = .p1Inst ∧
      ¬ Late { inState .p1Inst (onTime 1) with len := len } (onTime 1) :=
  fun _ _ => ⟨⟨rfl, rfl⟩, rfl, witness_in_time .p1Inst 1⟩

/-- A Protocol 1 Write to ID 1 before its first payload byte, of a frame with `n + 2` declared bytes. -/
def p1AtData (len : Half) (b : ByteEvent) : State :=
  { inState .p1Data b with proto := some .p1, hid := 1, id := 1, len := len, opc := 3,
                           sum := sumBytes 0 [1, loByte len, 3] }

/-- The last payload byte, and one that is not the last. -/
theorem witness_ProtocolOnePayloadByteStep :
    (Inv (p1AtData 3 (onTime 7)) ∧ Presents (p1AtData 3 (onTime 7)) (onTime 7) [] ∧
      (p1AtData 3 (onTime 7)).st = .p1Data ∧ ¬ Late (p1AtData 3 (onTime 7)) (onTime 7)) ∧
    (Inv (p1AtData 4 (onTime 7)) ∧ Presents (p1AtData 4 (onTime 7)) (onTime 7) [] ∧
      (p1AtData 4 (onTime 7)).st = .p1Data ∧ ¬ Late (p1AtData 4 (onTime 7)) (onTime 7)) := by
  refine ⟨⟨⟨rfl, ⟨rfl, by decide, rfl, by decide⟩, ⟨rfl, rfl, by decide, rfl, ?_, ?_, ?_⟩, ?_, rfl⟩, ⟨rfl, rfl⟩, rfl,
      witness_in_time .p1Data 7⟩,
    ⟨⟨rfl, ⟨rfl, by decide, rfl, by decide⟩, ⟨rfl, rfl, by decide, rfl, ?_, ?_, ?_⟩, ?_, rfl⟩, ⟨rfl, rfl⟩, rfl,
      witness_in_time .p1Data 7⟩⟩ <;> decide

theorem witness_ProtocolTwoIdByteStep :
    ∀ v ∈ [(0x01 : Byte), 0xFF], Presents (inState .p2Id (onTime v)) (onTime v) [] ∧
      (inState .p2Id (onTime v)).st = .p2Id ∧ ¬ Late (inState .p2Id (onTime v)) (onTime v) :=
  fun v _ => ⟨⟨rfl, rfl⟩, rfl, witness_in_time .p2Id v⟩

/-- Both length bytes; the second after low bytes 2 and 3 (too short and just long enough). -/
theorem witness_ProtocolTwoLengthByteSteps :
    (Presents (inState .p2Len1 (onTime 3)) (onTime 3) [] ∧ (inState .p2Len1 (onTime 3)).st = .p2Len1 ∧
      ¬ Late (inState .p2Len1 (onTime 3)) (onTime 3)) ∧
    (∀ len ∈ [(2 : Half), 3], Presents { inState .p2Len2 (onTime 0) with len := len } (onTime 0) [] ∧
      ({ inState .p2Len2 (onTime 0) with len := len } : State).st = .p2Len2 ∧
      ¬ Late { inState .p2Len2 (onTime 0) with len := len } (onTime 0)) :=
  ⟨⟨⟨rfl, rfl⟩, rfl, witness_in_time .p2Len1 3⟩, fun _ _ => ⟨⟨rfl, rfl⟩, rfl, witness_in_time .p2Len2 0⟩⟩

theorem witness_ProtocolTwoOpcodeByteStep :
    ∀ len ∈ [(3 : Half), 4], Presents { inState .p2Inst (onTime 1) with len := len } (onTime 1) [] ∧
      ({ inState .p2Inst (onTime 1) with len := len } : State).st = .p2Inst ∧
      ¬ Late { inState .p2Inst (onTime 1) with len := len } (onTime 1) :=
  fun _ _ => ⟨⟨rfl, rfl⟩, rfl, witness_in_time .p2Inst 1⟩

/-- A Protocol 2 Write to ID 1 before its first payload byte. -/
def p2AtData (len : Half) (b : ByteEvent) : State :=
  { inState .p2Data b with proto := some .p2, hid := 0xFD, id := 1, len := len, opc := 3,
                           crc := crcOf [0xFF, 0xFF, 0xFD, 0x00, 1, loByte len, hiByte len, 3] }

theorem witness_ProtocolTwoPayloadByteStep :
    (Inv (p2AtData 4 (onTime 7)) ∧ Presents (p2AtData 4 (onTime 7)) (onTime 7) [] ∧
      (p2AtData 4 (onTime 7)).st = .p2Data ∧ ¬ Late (p2AtData 4 (onTime 7)) (onTime 7)) ∧
    (Inv (p2AtData 5 (onTime 7)) ∧ Presents (p2AtData 5 (onTime 7)) (onTime 7) [] ∧
      (p2AtData 5 (onTime 7)).st = .p2Data ∧ ¬ Late (p2AtData 5 (onTime 7)) (onTime 7)) := by
  refine ⟨⟨⟨rfl, ⟨rfl, by decide, rfl, by decide⟩, ⟨⟨rfl, rfl⟩, ?_, ?_⟩, rfl, ?_, rfl⟩, ⟨rfl, rfl⟩, rfl,
      witness_in_time .p2Data 7⟩,
    ⟨⟨rfl, ⟨rfl, by decide, rfl, by decide⟩, ⟨⟨rfl, rfl⟩, ?_, ?_⟩, rfl, ?_, rfl⟩, ⟨rfl, rfl⟩, rfl,
      witness_in_time .p2Data 7⟩⟩ <;> decide

theorem witness_LowCrcByteStep :
    Presents (inState .p2Crc1 (onTime 0x19)) (onTime 0x19) [] ∧ (inState .p2Crc1 (onTime 0x19)).st = .p2Crc1 ∧
      ¬ Late (inState .p2Crc1 (onTime 0x19)) (onTime 0x19) :=
  ⟨⟨rfl, rfl⟩, rfl, witness_in_time .p2Crc1 0x19⟩

/-- Both protocols, with an empty payload. -/
theorem witness_TrailerStepRunsTheDecodedInstruction :
    (Presents { inState .p1Chk (onTime 0xFB) with opc := 1 } (onTime 0xFB) [] ∧
      ¬ Late { inState .p1Chk (onTime 0xFB) with opc := 1 } (onTime 0xFB) ∧
      ({ inState .p1Chk (onTime 0xFB) with opc := 1 } : State).bcnt.toNat ≤ State.reset.par.payloadCap ∧
      decodeOp .p1 1 ((List.range 0).map State.reset.buf.read) = .p1Ping []) ∧
    (Presents { inState .p2Crc2 (onTime 0x4E) with opc := 1 } (onTime 0x4E) [] ∧
      ¬ Late { inState .p2Crc2 (onTime 0x4E) with opc := 1 } (onTime 0x4E) ∧
      ({ inState .p2Crc2 (onTime 0x4E) with opc := 1 } : State).bcnt.toNat ≤ State.reset.par.payloadCap ∧
      decodeOp .p2 1 ((List.range 0).map State.reset.buf.read) = .p2Ping []) :=
  ⟨⟨⟨rfl, rfl⟩, witness_in_time .p1Chk 0xFB, by decide, rfl⟩, ⟨⟨rfl, rfl⟩, witness_in_time .p2Crc2 0x4E, by decide, rfl⟩⟩

theorem witness_LateByteDiscardsTheFrame :
    ∀ v ∈ [(0xFF : Byte), 0xFE], Presents (inState .p1Data (late v)) (late v) [] ∧
      (inState .p1Data (late v)).st ≠ .idle ∧ Late (inState .p1Data (late v)) (late v) :=
  fun v _ => ⟨⟨rfl, rfl⟩, (by decide : FsmState.p1Data ≠ .idle), witness_late .p1Data v⟩

/-- The longest payload that each form finds too short. -/
theorem witness_ShortReadsAndWritesGiveErrorRecords :
    ([0x2B] : List Byte).length < 2 ∧ ([0x84, 0x00, 0x04] : List Byte).length < 4 ∧ ([] : List Byte).length < 1 ∧
      ([0x74] : List Byte).length < 2 := by decide

/-- Two chunks of one byte, and of none. -/
theorem witness_SyncWriteGivesEveryChunk :
    (∀ x ∈ [((1 : Byte), [(0x10 : Byte)]), (2, [0x20])], x.2.length = (1 : Byte).toNat) ∧
    (∀ x ∈ [((1 : Byte), ([] : List Byte)), (2, [])], x.2.length = (0 : Half).toNat) := by decide

/-- The longest short header of each protocol, and a last chunk one byte short after a whole one. -/
theorem witness_ShortSyncWritesGiveErrorRecords :
    ([0x1E] : List Byte).length < 2 ∧ ([0x74, 0x00, 0x04] : List Byte).length < 4 ∧
    ((∀ x ∈ [((1 : Byte), [(0x10 : Byte), 0x00])], x.2.length = (2 : Byte).toNat) ∧
      ([0x10] : List Byte).length < (2 : Byte).toNat) ∧
    ((∀ x ∈ [((1 : Byte), [(0x10 : Byte)])], x.2.length = (1 : Half).toNat) ∧
      ([] : List Byte).length < (1 : Half).toNat) := by decide

/-- An entry with data and one without. -/
theorem witness_BulkWriteGivesEveryEntry :
    ∀ e ∈ [(((1 : Byte), (0x20 : Half), (1 : Half)), [(0xA0 : Byte)]), ((2, 0x1F, 0), [])],
      e.2.length = e.1.2.2.toNat := by decide

/-- A whole entry, then 1 and 4 bytes of a header, and an entry one byte short. -/
theorem witness_ShortBulkWritesGiveErrorRecords :
    (∀ e ∈ [(((1 : Byte), (0x20 : Half), (1 : Half)), [(0xA0 : Byte)])], e.2.length = e.1.2.2.toNat) ∧
    (∀ tail ∈ [[(2 : Byte)], [2, 0x1F, 0, 1]], 1 ≤ tail.length ∧ tail.length ≤ 4) ∧
    ([0x50] : List Byte).length < (2 : Half).toNat := by decide

/-- No tail, and the longest one. -/
theorem witness_BulkReadWritesTheMap :
    State.reset.bulk.wf = true ∧
    [(5 : Byte), 0x1E, 0, 2, 0] = [((5 : Byte), (30 : Half), (2 : Half))].flatMap entryBytes ++ [] ∧
    [(5 : Byte), 0x1E, 0, 2, 0, 1, 2, 3, 4] = [((5 : Byte), (30 : Half), (2 : Half))].flatMap entryBytes ++ [1, 2, 3, 4] ∧
    ([] : List Byte).length < 5 ∧ ([1, 2, 3, 4] : List Byte).length < 5 := by decide

theorem witness_PingReplyGivesModelAndFirmware : LastOpcIs 0x01 (afterRequest 0x01) := ⟨rfl, rfl⟩

/-- A servo with an entry, and one without. -/
theorem witness_BulkReplyUsesTheMap :
    LastOpcIs 0x92 { afterRequest 0x92 with id := 5, bulk := [(5, { v := true, reg := 30, cnt := 2 })] } ∧
    (BulkMap.read [(5, { v := true, reg := 30, cnt := 2 })] 5).v = true ∧
    (BulkMap.read [(5, { v := true, reg := 30, cnt := 2 })] 6).v = false := ⟨⟨rfl, rfl⟩, by decide, by decide⟩

/-- After no request, and after a Ping with two data bytes; with a last Read and without. -/
theorem witness_OtherReplyUsesTheLastRead :
    (¬ LastOpcIs 0x92 State.reset ∧ ¬ LastOpcIs 0x01 State.reset ∧ State.reset.lastRegV = false) ∧
    (¬ LastOpcIs 0x92 { afterRequest 0x01 with lastRegV := true } ∧ ([1, 2] : List Byte).length < 3 ∧
      ({ afterRequest 0x01 with lastRegV := true } : State).lastRegV = true) := by
  unfold LastOpcIs
  decide

/-- The map and the opcode that a Bulk Read left, met by a Response from servo 5. -/
theorem witness_BulkReadThenResponseCorrelates :
    ∃ t u : State, State.reset.bulk.wf = true ∧
      [(5 : Byte), 0x1E, 0, 2, 0] = (([] : List (Byte × Half × Half)) ++ (5, 30, 2) :: []).flatMap entryBytes ∧
      (∀ e ∈ ([] : List (Byte × Half × Half)), e.1 ≠ (5 : Byte)) ∧
      exec (byProto .p2 (.p1BulkRead [5, 0x1E, 0, 2, 0]) (.p2BulkRead [5, 0x1E, 0, 2, 0])) State.reset = .next t ∧
      u.bulk.read 5 = t.bulk.read 5 ∧ LastOpcKept t u ∧ u.id = 5 :=
  ⟨_, { (State.reset.setBulk (bulkReadWrites [] [5, 0x1E, 0, 2, 0])).setLastOpc 0x92 with id := 5 }, rfl, by decide,
    by simp, rfl, rfl, ⟨rfl, rfl⟩, rfl⟩

/-- A session with these families and these TABSEL exceptions. -/
def tableSession (fam1 : BitVec 3) (fam2 : BitVec 2) (rules : List TabRule) : State :=
  State.sessionReset { defaultParams with tabsel := rules } { defaultCfg with fam1 := fam1, fam2 := fam2 }

/-- A controller board with ID 0 of Protocol 1 in a session with the default configuration. -/
def boardRule : TabRule := { proto := .p1, fam1 := 0, fam2 := 0, board := 0, id := 0, fam := .board }

/-- Every family encoding, with no exception; and an exception for the other protocol. -/
theorem witness_DefaultTableIsTheConfiguredFamily :
    (∀ fam1 ∈ [(0 : BitVec 3), 1, 2, 3], (tableSession fam1 0 []).cfg.fam1 = fam1 ∧
      ∀ r ∈ (tableSession fam1 0 []).par.tabsel, ¬ TabApplies .p1 (tableSession fam1 0 []) r) ∧
    (∀ fam2 ∈ [(0 : BitVec 2), 1, 2], (tableSession 0 fam2 [boardRule]).cfg.fam2 = fam2 ∧
      ∀ r ∈ (tableSession 0 fam2 [boardRule]).par.tabsel, ¬ TabApplies .p2 (tableSession 0 fam2 [boardRule]) r) := by
  refine ⟨fun fam1 _ => ⟨rfl, fun r h => ?_⟩, fun fam2 _ => ⟨rfl, fun r h => ?_⟩⟩
  · simp [tableSession, State.sessionReset] at h
  · simp only [tableSession, State.sessionReset, List.mem_singleton] at h
    simp [TabApplies, h, boardRule]

/-- The exception for ID 0, after one for ID 1. -/
theorem witness_SuppliedExceptionSelectsTheTable :
    (tableSession 0 0 [{ boardRule with id := 1 }, boardRule]).par.tabsel =
      [{ boardRule with id := 1 }] ++ boardRule :: [] ∧
    (∀ q ∈ [{ boardRule with id := 1 }],
      ¬ TabApplies .p1 (tableSession 0 0 [{ boardRule with id := 1 }, boardRule]) q) ∧
    TabApplies .p1 (tableSession 0 0 [{ boardRule with id := 1 }, boardRule]) boardRule := by
  refine ⟨rfl, fun q h => ?_, rfl, rfl, rfl, rfl, rfl⟩
  simp only [List.mem_singleton] at h
  simp [TabApplies, h, tableSession, State.sessionReset]

/-- AX address 3, which the table holds once, and AX address 10, which it does not hold. -/
theorem witness_LookupFindsTheTableEntry :
    (⟨.ax, 3, ⟨"ID", .w1⟩⟩ : RegEntry) ∈ defaultParams.regtab ∧
    (∀ e ∈ defaultParams.regtab, e.fam = .ax → e.addr = 3 → e.desc = ⟨"ID", .w1⟩) ∧
    (∀ e ∈ defaultParams.regtab, ¬ (e.fam = .ax ∧ e.addr = 10)) := by decide +kernel

theorem witness_WalkTakesRegisterAfterRegister : ([0x00, 0x02] : List Byte) ≠ [] := by decide

/-- A received P1 Ping to ID 0 and a received P2 Ping to ID 0, before their last trailer byte. -/
def pingTrailer (p : Proto) : State := atTrailer p 0x01 [] State.reset

theorem witness_RecordedCheckIsThatOfTheFrame :
    (∃ t b r, Inv (pingTrailer .p1) ∧ Presents (pingTrailer .p1) b [] ∧ ¬ Late (pingTrailer .p1) b ∧
      step (pingTrailer .p1) = .next t ∧ t.out = some r ∧ (pingTrailer .p1).st = .p1Chk) ∧
    (∃ t b r, Inv (pingTrailer .p2) ∧ Presents (pingTrailer .p2) b [] ∧ ¬ Late (pingTrailer .p2) b ∧
      step (pingTrailer .p2) = .next t ∧ t.out = some r ∧ (pingTrailer .p2).st = .p2Crc2) := by
  refine ⟨⟨_, _, _, ⟨rfl, ⟨rfl, by decide, rfl, by decide⟩, ⟨rfl, rfl, by decide, rfl, by decide, by decide, by decide⟩,
      by decide, rfl⟩, ⟨rfl, rfl⟩, ?_, rfl, rfl, rfl⟩,
    ⟨_, _, _, ⟨rfl, ⟨rfl, by decide, rfl, by decide⟩, ⟨⟨rfl, rfl⟩, by decide, by decide⟩, by decide, rfl⟩, ⟨rfl, rfl⟩, ?_,
      rfl, rfl, rfl⟩⟩ <;>
    simp [Late, LateAfter, pingTrailer, atTrailer, State.reset, State.sessionReset, defaultParams]

/-- An instruction of each protocol. -/
theorem witness_MismatchOnlyAnnotates :
    (∃ t, exec (.p1Ping []) State.reset = .next t) ∧ ∃ t, exec (.p2Ping []) State.reset = .next t := ⟨⟨_, rfl⟩, _, rfl⟩

/-- The longest payload and the largest ID of Protocol 1, the longest payload of Protocol 2, and an empty one. -/
theorem witness_DecodeOfEncodeIsTheFrame :
    (frameWf 0xFE (.p1Write (List.replicate 253 0xFF)) = true ∧ (List.replicate 253 (0xFF : Byte)).length ≤ 65532) ∧
    (frameWf 0xFF (.p2Write (List.replicate 65532 0xFF)) = true ∧ (List.replicate 65532 (0xFF : Byte)).length ≤ 65532) ∧
    (frameWf 0x00 (.p1Unknown 0x10 []) = true ∧ ([] : List Byte).length ≤ 0) := by
  simp only [frameWf, idOk, Instr.wf, Instr.payload, Instr.proto, maxPayload, List.length_replicate]
  decide +kernel

theorem witness_EncodeOfDecodeIsTheBytes :
    ∃ d, decodeFrame 65532 [0xFF, 0xFF, 0x01, 0x02, 0x01, 0xFB] = .ok d ∧ d.chkExp = d.chkAct :=
  ⟨{ id := 1, instr := .p1Ping [], chkExp := 0xFB, chkAct := 0xFB, rest := [] }, rfl, rfl⟩

/-- The machine after reset, with the first byte of a frame to come. -/
def oneByteToCome : State := { State.reset with input := [onTime 0xFF] }

theorem witness_EveryStepKeepsTheInvariant : ∃ t, Inv oneByteToCome ∧ step oneByteToCome = .next t := by
  refine ⟨_, ⟨rfl, ⟨rfl, by decide, rfl, by decide⟩, ?_⟩, rfl⟩
  exact ⟨rfl, rfl, rfl, rfl, rfl, rfl, rfl, rfl, rfl, rfl, rfl, rfl⟩

theorem witness_ValidConfigurationNeverStops : Inv oneByteToCome ∧ oneByteToCome.cfgErr = false :=
  ⟨witness_EveryStepKeepsTheInvariant.choose_spec.1, rfl⟩

/-- An event that ends at the last timestamp of TIME_W bits. -/
theorem witness_TimestampsStayWithinTheirWidth :
    ∃ t, TimesFit { State.reset with input := [{ v := 0xFF, ts := 0, te := 2 ^ 64 - 1 }] } ∧
      step { State.reset with input := [{ v := 0xFF, ts := 0, te := 2 ^ 64 - 1 }] } = .next t := by
  refine ⟨_, ?_, rfl⟩
  simp [TimesFit, EventFits, Fits, State.reset, State.sessionReset, defaultParams]

theorem witness_NoStepChangesTheConfiguration : ∃ t, step oneByteToCome = .next t := ⟨_, rfl⟩

/-- A step that presents a record, and one that does not. -/
theorem witness_StepTakesOneEventAndEmitsOnlyAtTrailers :
    (∃ t b, (pingTrailer .p1).input = b :: [] ∧ step (pingTrailer .p1) = .next t ∧ t.out ≠ none) ∧
    (∃ t, oneByteToCome.input = onTime 0xFF :: [] ∧ step oneByteToCome = .next t) :=
  ⟨⟨_, _, rfl, rfl, by decide⟩, ⟨_, rfl, rfl⟩⟩

/-- A request's record, a Response's record, and no record. -/
theorem witness_CorrelationChangesOnlyWithItsRecord :
    (∃ t b, (pingTrailer .p2).input = b :: [] ∧ step (pingTrailer .p2) = .next t ∧ t.out ≠ none) ∧
    (∃ t b, (atTrailer .p2 0x55 [] State.reset).input = b :: [] ∧ step (atTrailer .p2 0x55 [] State.reset) = .next t ∧
      t.out ≠ none) ∧
    (∃ t, oneByteToCome.input = onTime 0xFF :: [] ∧ step oneByteToCome = .next t ∧ t.out = none) :=
  ⟨⟨_, _, rfl, rfl, by decide⟩, ⟨_, _, rfl, rfl, by decide⟩, ⟨_, rfl, rfl, rfl⟩⟩

/-- A record of the handler's kind, and an ERROR record. -/
theorem witness_EveryRecordHasItsShape :
    (∃ t b r, (pingTrailer .p1).input = b :: [] ∧ step (pingTrailer .p1) = .next t ∧ t.out = some r ∧ r.kind = .ping) ∧
    (∃ t b r, (atTrailer .p1 0x02 [] State.reset).input = b :: [] ∧
      step (atTrailer .p1 0x02 [] State.reset) = .next t ∧ t.out = some r ∧ r.kind = .error) :=
  ⟨⟨_, _, _, rfl, rfl, rfl, rfl⟩, ⟨_, _, _, rfl, rfl, rfl, rfl⟩⟩

theorem witness_DisplayFieldsAffectNoStep : ∃ t, step oneByteToCome = .next t := ⟨_, rfl⟩

/-- The six bytes of a P1 Ping, 10 apart from time `t` on (spec/95 L1-1). -/
def pingEvents (t : Time) : List ByteEvent :=
  [ ⟨0xFF, t, t + 10⟩, ⟨0xFF, t + 10, t + 20⟩, ⟨0x01, t + 20, t + 30⟩, ⟨0x02, t + 30, t + 40⟩, ⟨0x01, t + 40, t + 50⟩,
    ⟨0xFB, t + 50, t + 60⟩ ]

/-- The same frame, the longest payload that fits a buffer of none, from IDLE and late inside another frame. -/
theorem witness_WholeFramesAreDecoded :
    frameWf 1 (.p1Ping []) = true ∧ (pingEvents 0).map (fun b => b.v) = encode 1 (.p1Ping []) ∧
    (pingEvents 31).map (fun b => b.v) = encode 1 (.p1Ping []) ∧ NoGaps State.reset.par (pingEvents 0) ∧
    NoGaps State.reset.par (pingEvents 31) ∧
    (Inv { State.reset with input := pingEvents 0 } ∧ ({ State.reset with input := pingEvents 0 } : State).st = .idle) ∧
    (Inv { State.reset with st := .pre2, input := pingEvents 31 } ∧
      ∃ b ∈ (pingEvents 31).head?, Late { State.reset with st := .pre2, input := pingEvents 31 } b) := by
  refine ⟨by decide, by decide, by decide, ?_, ?_, ⟨⟨rfl, ⟨rfl, by decide, rfl, by decide⟩, ?_⟩, rfl⟩,
    ⟨rfl, ⟨rfl, by decide, rfl, by decide⟩, ?_⟩, ⟨0xFF, 31, 41⟩, rfl, ?_⟩
  · simp [NoGaps, LateAfter, pingEvents, State.reset, State.sessionReset, defaultParams]
  · simp [NoGaps, LateAfter, pingEvents, State.reset, State.sessionReset, defaultParams]
  · exact ⟨rfl, rfl, rfl, rfl, rfl, rfl, rfl, rfl, rfl, rfl, rfl, rfl⟩
  · exact ⟨⟨⟨rfl, rfl, rfl, rfl, rfl⟩, rfl, rfl, rfl, rfl⟩, rfl⟩
  · simp [Late, LateAfter, State.reset, State.sessionReset, defaultParams]
end

/-! The scope of the model (00_scope.md): fields are little-endian, a step takes one event and presents a record only
at a last trailer byte, and timestamps stay within TIME_W bits. -/

namespace Sys2Proof.Machine

/-! ### Byte order -/

/-- A 16-bit field as a number (20_memory.md R32). -/
theorem le16_toNat (lo hi : Byte) : (le16 lo hi).toNat = lo.toNat + 256 * hi.toNat := by
  have hlo := lo.isLt
  have hhi := hi.isLt
  rw [le16_eq, BitVec.toNat_ofNat]
  omega

/-- The positional sum of 20_memory.md R33, by induction on the bytes: a byte in front moves every later byte up by one
power of 256. -/
theorem leNat_eq_sum (l : List Byte) :
    leNat l = ((List.range l.length).map fun k => (l.getD k 0).toNat * 256 ^ k).sum := by
  induction l with
  | nil => rfl
  | cons b l ih =>
    have hshift : ((List.range l.length).map fun k => (l.getD k 0).toNat * 256 ^ (k + 1)).sum = 256 * leNat l := by
      rw [ih, ← List.sum_map_mul_left]
      congr 1
      exact List.map_congr_left fun k _ => by ring
    simp only [leNat, List.length_cons, List.range_succ_eq_map, List.map_cons, List.sum_cons, List.map_map,
      Function.comp_def, List.getD_cons_zero, List.getD_cons_succ, pow_zero, mul_one, Nat.succ_eq_add_one, hshift]

/-- Settles O37. -/
theorem fieldsAreLittleEndian : Obligations.FieldsAreLittleEndian := ⟨leNat_eq_sum, le16_toNat⟩

/-! ### What a byte step leaves on the ports -/

/-- An instruction that answers ends the frame and presents the frame's record. -/
theorem exec_next_ends (i : Instr) (s t : State) (h : exec i s = .next t) :
    FrameEnded s t ∧ ∃ r, t.out = some r ∧ RecordOf i.proto i.mnemonic i.opcode i.payload s r := by
  obtain ⟨res, u, t', -, he, hend, hout, -⟩ := exec_ends i s
  obtain rfl : t' = t := by simpa [he] using h
  exact ⟨hend, _, hout, frameRecord_recordOf ..⟩

@[simp] theorem monitor_input (s : State) : (monitor s).input = s.input := by
  rcases monitor_cases s with ⟨hm, -⟩ | ⟨hm, -⟩ <;> simp [hm]

@[simp] theorem monitor_cur (s : State) : (monitor s).cur = s.cur := by
  rcases monitor_cases s with ⟨hm, -⟩ | ⟨hm, -⟩ <;> simp [hm]

@[simp] theorem monitor_out (s : State) : (monitor s).out = s.out := by
  rcases monitor_cases s with ⟨hm, -⟩ | ⟨hm, -⟩ <;> simp [hm]

/-- A frame that is still in progress after the monitor was in progress before it, and the event is in time. -/
theorem in_time_of_monitor_not_idle (s : State) (b : ByteEvent) (rest : List ByteEvent)
    (h : (monitor (s.present b rest)).st ≠ .idle) : (monitor (s.present b rest)).st = s.st ∧ ¬ Late s b := by
  rcases monitor_cases (s.present b rest) with ⟨hm, hs⟩ | ⟨hm, -⟩ <;> simp only [hm] at h ⊢
  · refine ⟨rfl, fun hl => ?_⟩
    simpa [(timedOut_iff_late s b rest).2 hl] using hs.resolve_left h
  · simp at h

/-- No handler writes the input, the running event, the previous event or the parameters. -/
theorem handleByte_keeps_ports (s t : State) (h : handleByte s = .next t) :
    t.input = s.input ∧ t.cur = s.cur ∧ t.tLastS = s.tLastS ∧ t.tLastE = s.tLastE ∧ t.par = s.par := by
  rcases handleByte_cases s t h with hq | ⟨p, -, he⟩
  · exact ⟨hq.input, hq.cur, hq.tLastS, hq.tLastE, hq.fixed.1⟩
  · obtain ⟨⟨-, hfixed, -, hs, hl, hin, hcur⟩, -⟩ := exec_next_ends _ _ _ he
    exact ⟨hin, hcur, hs, hl, hfixed.1⟩

/-- A handler that presents a record where none was presented is that of a last trailer byte, and it resets the framing
registers (41_p1_decoder.md R63, 42_p2_decoder.md R75). -/
theorem handleByte_emits_at_trailer (s t : State) (h : handleByte s = .next t) (hs : s.out = none)
    (ht : t.out ≠ none) : (s.st = .p1Chk ∨ s.st = .p2Crc2) ∧ FramingReset t := by
  rcases handleByte_cases s t h with hq | ⟨p, hp, he⟩
  · exact absurd (hq.out.trans hs) ht
  · refine ⟨?_, (exec_next_ends _ _ _ he).1.1⟩
    cases p
    · exact .inl hp
    · exact .inr hp

/-- Settles O52: the monitor leaves a reset state in IDLE, where no handler presents a record. -/
theorem stepTakesOneEventAndEmitsOnlyAtTrailers : Obligations.StepTakesOneEventAndEmitsOnlyAtTrailers := by
  intro s t b rest hi h
  obtain ⟨-, ⟨hnil, -⟩ | ⟨b', rest', u, hi', hu, rfl⟩⟩ := step_cases s t h
  · simp [hnil] at hi
  obtain ⟨rfl, rfl⟩ : b' = b ∧ rest' = rest := by simpa [hi'] using hi
  refine ⟨by simpa using (handleByte_keeps_ports _ _ hu).1, rfl, rfl, fun hout => ?_⟩
  obtain ⟨hst, hreset⟩ := handleByte_emits_at_trailer _ _ hu (by simp) hout
  have hbusy : (monitor (s.present b' rest')).st ≠ .idle := by rcases hst with hst | hst <;> simp [hst]
  obtain ⟨hkept, htime⟩ := in_time_of_monitor_not_idle s b' rest' hbusy
  exact ⟨hkept ▸ hst, htime, hreset⟩

/-! ### Timestamps -/

theorem fits_zero (par : Params) : Fits par 0 := Nat.two_pow_pos _

/-- A payload byte's handler that answers has appended the byte. -/
theorem mapNext_bufAppend_next (f : State → State) (s t : State) (v : Byte)
    (h : mapNext f (bufAppend s v) = .next t) :
    t = f { s with buf := s.buf.write s.bcnt.toNat v, bcnt := s.bcnt + 1 } := by
  obtain ⟨u, hu, rfl⟩ := (mapNext_eq_next ..).1 h
  rw [(bufAppend_next _ _ _ hu).2]

/-- Where the start times of the two preamble bytes come from in a byte step: kept, reset, or the running event's, and
in a slide the second becomes the first (40_frame_sync.md R56 to R58). -/
theorem handleByte_preamble_times (s t : State) (h : handleByte s = .next t) :
    t.tStart ∈ [s.tStart, 0, s.cur.ts, s.tPre2] ∧ t.tPre2 ∈ [s.tPre2, 0, s.cur.ts] := by
  have htrailer : ∀ p, trailerByte p s = .next t → t.tStart = 0 ∧ t.tPre2 = 0 := by
    intro p hp
    obtain ⟨⟨⟨-, -, -, -, -, -, -, -, -, -, hstart, hpre⟩, -⟩, -⟩ :=
      exec_next_ends _ _ _ (trailerByte_next p s t hp).2
    exact ⟨hstart, hpre⟩
  unfold handleByte at h
  rcases hs : s.st <;> simp only [hs] at h
  case p1Chk => simp [htrailer .p1 h]
  case p2Crc2 => simp [htrailer .p2 h]
  case p1Data => simp [mapNext_bufAppend_next _ _ _ _ h, p1DataNext]
  case p2Data => simp [mapNext_bufAppend_next _ _ _ _ h, p2DataNext]
  all_goals
    injection h with h
    subst h
  case idle => unfold idleByte; split <;> simp
  case pre2 => unfold pre2Byte; split <;> simp
  case rid => unfold ridByte; split <;> simp
  case rlen1 => unfold rlen1Byte; dsimp only; split_ifs <;> simp
  case p2Len2 => unfold p2Len2Byte; dsimp only; split_ifs <;> simp
  all_goals simp [p1InstByte, p2IdByte, p2Len1Byte, p2InstByte, p2Crc1Byte]

theorem timesFit_present (s : State) (b : ByteEvent) (rest : List ByteEvent) (hi : s.input = b :: rest)
    (h : TimesFit s) : TimesFit (s.present b rest) := by
  obtain ⟨hstart, hpre, hls, hle, -, hin, -⟩ := h
  rw [hi, List.forall_mem_cons] at hin
  exact ⟨hstart, hpre, hls, hle, hin.1, hin.2, by simp⟩

theorem timesFit_frameReset (s : State) (h : TimesFit s) : TimesFit s.frameReset := by
  obtain ⟨-, -, hrest⟩ := h
  exact ⟨fits_zero _, fits_zero _, hrest⟩

theorem timesFit_monitor (s : State) (h : TimesFit s) : TimesFit (monitor s) := by
  rcases monitor_cases s with ⟨hm, -⟩ | ⟨hm, -⟩ <;> rw [hm]
  · exact h
  · exact timesFit_frameReset s h

/-- The record a handler leaves on the port is the one that was there, or runs from the first preamble byte's start to
the running event's end (44_dispatch.md R86). -/
theorem handleByte_record_times (s t : State) (h : handleByte s = .next t) :
    t.out = s.out ∨ ∃ r, t.out = some r ∧ r.tStart = s.tStart ∧ r.tEnd = s.cur.te := by
  rcases handleByte_cases s t h with hq | ⟨p, -, he⟩
  · exact .inl hq.out
  · obtain ⟨-, r, hr, -, hstart, hend, -⟩ := exec_next_ends _ _ _ he
    exact .inr ⟨r, hr, hstart, hend⟩

/-- Every handler keeps timestamps within TIME_W bits: it copies them. -/
theorem timesFit_handleByte (s t : State) (hfit : TimesFit s) (h : handleByte s = .next t) : TimesFit t := by
  obtain ⟨hstart, hpre, hls, hle, hcur, hin, hout⟩ := hfit
  obtain ⟨ein, ecur, els, ele, epar⟩ := handleByte_keeps_ports s t h
  obtain ⟨mstart, mpre⟩ := handleByte_preamble_times s t h
  have hzero := fits_zero s.par
  have hstarts : ∀ x ∈ [s.tStart, 0, s.cur.ts, s.tPre2], Fits s.par x := by simp [hstart, hzero, hcur.1, hpre]
  have hpres : ∀ x ∈ [s.tPre2, 0, s.cur.ts], Fits s.par x := by simp [hpre, hzero, hcur.1]
  simp only [TimesFit, ein, ecur, els, ele, epar]
  refine ⟨hstarts _ mstart, hpres _ mpre, hls, hle, hcur, hin, ?_⟩
  rcases handleByte_record_times s t h with hsame | ⟨r, hr, hrs, hre⟩
  · rwa [hsame]
  · simpa [hr, hrs, hre] using And.intro hstart hcur.2

/-- Settles O50: each part of a byte step (R55) copies timestamps or resets them. -/
theorem timestampsStayWithinTheirWidth : Obligations.TimestampsStayWithinTheirWidth := by
  intro s t hfit h
  obtain ⟨-, ⟨-, rfl⟩ | ⟨b, rest, u, hi, hu, rfl⟩⟩ := step_cases s t h
  · exact hfit
  have hpresent := timesFit_present s b rest hi hfit
  obtain ⟨hstart, hpre, -, -, htail⟩ := timesFit_handleByte _ u (timesFit_monitor _ hpresent) hu
  obtain ⟨-, hcur, -⟩ := handleByte_keeps_ports _ u hu
  rw [monitor_cur, State.present_cur] at hcur
  have hb : EventFits u.par b := hcur ▸ htail.1
  exact ⟨hstart, hpre, hb.1, hb.2, htail⟩

end Sys2Proof.Machine

/-! The state of the block (10_state.md): what a session reset leaves, that no step changes the configuration, that its
display fields matter to no step, and that every step keeps the invariant of the framing machine. -/

namespace Sys2Proof.Machine

/-! ### Session reset -/

/-- The status bit of 10_state.md R26 by the fields of the configuration. -/
theorem cfgInvalid_iff (c : Cfg) :
    cfgInvalid c = true ↔ c.base = 3 ∨ 4 ≤ c.fam1.toNat ∨ c.fam2 = 3 ∨ c.board = 3 := by
  simp [cfgInvalid, or_assoc]

theorem framingReset_sessionReset (p : Params) (c : Cfg) : FramingReset (State.sessionReset p c) :=
  ⟨rfl, rfl, rfl, rfl, rfl, rfl, rfl, rfl, rfl, rfl, rfl, rfl⟩

/-- Settles O1. -/
theorem sessionResetLeavesTheSpecValues : Obligations.SessionResetLeavesTheSpecValues := fun p c =>
  ⟨_, rfl, rfl, rfl, framingReset_sessionReset p c, Memory.read_nil, rfl, rfl, rfl, rfl, rfl, rfl, rfl,
    BulkMap.read_nil, cfgInvalid_iff c⟩

/-- Settles O47: both memories are empty and the framing registers are those of IDLE. -/
theorem invariantHoldsAfterReset : Obligations.InvariantHoldsAfterReset := fun p c =>
  ⟨rfl, ⟨Memory.wf_nil, by simp [State.sessionReset], BulkMap.wf_nil, by simp [State.sessionReset]⟩,
    framingReset_sessionReset p c⟩

/-! ### The configuration stays -/

/-- No handler writes the parameters, the configuration or `cfg_err`. -/
theorem handleByte_keeps_fixed (s t : State) (h : handleByte s = .next t) : FixedKept s t := by
  rcases handleByte_cases s t h with hq | ⟨p, -, he⟩
  · exact hq.fixed
  · exact (exec_next_ends _ _ _ he).1.2.1

/-- The monitor resets framing registers only (10_state.md R30). -/
theorem monitor_keeps_fixed (s : State) : FixedKept s (monitor s) := by
  rcases monitor_cases s with ⟨hm, -⟩ | ⟨hm, -⟩ <;> rw [hm] <;> exact ⟨rfl, rfl, rfl⟩

/-- Settles O51: of the parts of a byte step (R55), neither the monitor nor a handler writes the configuration. -/
theorem noStepChangesTheConfiguration : Obligations.NoStepChangesTheConfiguration := by
  intro s t h
  obtain ⟨-, ⟨-, rfl⟩ | ⟨b, rest, u, -, hu, rfl⟩⟩ := step_cases s t h
  · exact ⟨rfl, rfl, rfl⟩
  obtain ⟨mpar, mcfg, merr⟩ := monitor_keeps_fixed (s.present b rest)
  obtain ⟨hpar, hcfg, herr⟩ := handleByte_keeps_fixed _ _ hu
  exact ⟨hpar.trans mpar, hcfg.trans mcfg, herr.trans merr⟩

/-! ### The display fields

Changing the display fields commutes with every part of a step: the only reader of `cfg` is the table selection, whose
arguments are the other three fields (10_state.md R25, 44_dispatch.md R83). -/

/-- The state with other values of the display fields of `cfg` (10_state.md R25). -/
def State.withDisplay (base : BitVec 2) (pairs : BitVec 1) (s : State) : State :=
  { s with cfg := { s.cfg with base := base, pairs := pairs } }

section
variable (base : BitVec 2) (pairs : BitVec 1)

theorem dispatchFrame_withDisplay (p : Proto) (mn : Mnemonic) (opc : Byte) (pay : List Byte) (res : HandlerResult)
    (s : State) : dispatchFrame p mn opc pay res (s.withDisplay base pairs) =
      mapNext (State.withDisplay base pairs) (dispatchFrame p mn opc pay res s) := by
  by_cases hm : mn = .response <;> simp [dispatchFrame, noteOpcode, hm] <;> rfl

theorem readFrame_withDisplay (p : Proto) (opc : Byte) (pay : List Byte) (s : State) :
    readFrame p opc pay (s.withDisplay base pairs) =
      mapNext (State.withDisplay base pairs) (readFrame p opc pay s) := by
  unfold readFrame
  split
  · exact dispatchFrame_withDisplay base pairs ..
  · rename_i a c _ _
    exact dispatchFrame_withDisplay base pairs _ _ _ _ _ (s.setLastRead a c)

/-- Every handler's result is the same in both states: it reads `cfg` through the table selection only. -/
theorem exec_withDisplay (i : Instr) (s : State) :
    exec i (s.withDisplay base pairs) = mapNext (State.withDisplay base pairs) (exec i s) := by
  cases i
  case p1Read pay => exact readFrame_withDisplay base pairs .p1 0x02 pay s
  case p2Read pay => exact readFrame_withDisplay base pairs .p2 0x02 pay s
  case p1BulkRead pay =>
    exact dispatchFrame_withDisplay base pairs .p1 _ _ _ _ (s.setBulk (bulkReadWrites s.bulk pay))
  case p2BulkRead pay =>
    exact dispatchFrame_withDisplay base pairs .p2 _ _ _ _ (s.setBulk (bulkReadWrites s.bulk pay))
  all_goals exact dispatchFrame_withDisplay base pairs _ _ _ _ _ s

theorem bufAppend_withDisplay (s : State) (v : Byte) :
    bufAppend (s.withDisplay base pairs) v = mapNext (State.withDisplay base pairs) (bufAppend s v) := by
  by_cases h : s.bcnt.toNat < s.par.payloadCap
  · rw [bufAppend_of_room s v h]
    exact bufAppend_of_room (s.withDisplay base pairs) v h
  · simp [bufAppend, State.withDisplay, h, mapNext]

/-- An append followed by what a payload state does beside it (R62, R73). -/
theorem mapNext_bufAppend_withDisplay (f : State → State)
    (hf : ∀ s : State, f (s.withDisplay base pairs) = (f s).withDisplay base pairs) (s : State) (v : Byte) :
    mapNext f (bufAppend (s.withDisplay base pairs) v) =
      mapNext (State.withDisplay base pairs) (mapNext f (bufAppend s v)) := by
  rw [bufAppend_withDisplay]
  cases bufAppend s v <;> simp [mapNext, hf]

theorem trailerByte_withDisplay (p : Proto) (s : State) :
    trailerByte p (s.withDisplay base pairs) = mapNext (State.withDisplay base pairs) (trailerByte p s) := by
  have hdec : decodeAt p (s.withDisplay base pairs) = decodeAt p s := rfl
  unfold trailerByte
  rw [hdec]
  split
  · exact exec_withDisplay base pairs ..
  · rfl

theorem handleByte_withDisplay (s : State) :
    handleByte (s.withDisplay base pairs) = mapNext (State.withDisplay base pairs) (handleByte s) := by
  have hst : (s.withDisplay base pairs).st = s.st := rfl
  unfold handleByte
  rcases hs : s.st <;> simp only [hst, hs]
  case p1Chk => exact trailerByte_withDisplay base pairs ..
  case p2Crc2 => exact trailerByte_withDisplay base pairs ..
  case p1Data => exact mapNext_bufAppend_withDisplay base pairs p1DataNext (fun _ => rfl) s s.cur.v
  case p2Data => exact mapNext_bufAppend_withDisplay base pairs p2DataNext (fun _ => rfl) s s.cur.v
  all_goals simp only [mapNext_next, Host.Outcome.next.injEq]
  case idle => simp only [idleByte, apply_ite (State.withDisplay base pairs)]; rfl
  case pre2 => simp only [pre2Byte, apply_ite (State.withDisplay base pairs)]; rfl
  case rid => simp only [ridByte, apply_ite (State.withDisplay base pairs)]; rfl
  case rlen1 => simp only [rlen1Byte, apply_ite (State.withDisplay base pairs)]; rfl
  case p2Len2 => simp only [p2Len2Byte, apply_ite (State.withDisplay base pairs)]; rfl
  all_goals rfl

theorem monitor_withDisplay (s : State) :
    monitor (s.withDisplay base pairs) = (monitor s).withDisplay base pairs := by
  simp only [monitor, apply_ite (State.withDisplay base pairs)]
  rfl

/-- The step with other display fields is the step, with those display fields. -/
theorem step_withDisplay (s t : State) (h : step s = .next t) :
    step (s.withDisplay base pairs) = .next (t.withDisplay base pairs) := by
  obtain ⟨herr, ⟨hi, rfl⟩ | ⟨b, rest, u, hi, hu, rfl⟩⟩ := step_cases s t h
  · exact step_of_no_input (t.withDisplay base pairs) herr hi
  · have hpres : (s.withDisplay base pairs).present b rest = (s.present b rest).withDisplay base pairs := rfl
    rw [step_of_event (s.withDisplay base pairs) b rest herr hi, hpres, monitor_withDisplay, handleByte_withDisplay,
      hu]
    rfl

end

/-- Settles O55: the step commutes with the change, and leaves the other fields of the configuration (O51). -/
theorem displayFieldsAffectNoStep : Obligations.DisplayFieldsAffectNoStep := by
  intro s t base pairs h
  have hcfg : t.cfg = s.cfg := (noStepChangesTheConfiguration s t h).2.1
  simpa only [State.withDisplay, hcfg] using step_withDisplay base pairs s t h

/-! ### Every step keeps the invariant: the memories -/

/-- Everything an instruction does to the two memories: the buffer stays, and the map stays but for a Bulk Read's
writes (44_dispatch.md R81, 46_bulk_and_response.md R103). -/
theorem exec_memories (i : Instr) (s t : State) (h : exec i s = .next t) :
    t.buf = s.buf ∧ (t.bulk = s.bulk ∨ t.bulk = bulkReadWrites s.bulk i.payload) := by
  obtain ⟨res, u, hw, he⟩ := exec_dispatches i s
  obtain rfl : _ = t := Host.Outcome.next.inj (he.symm.trans h)
  cases hw <;> simp

theorem memoryInv_of_eq (s t : State) (hpar : t.par = s.par) (hbuf : t.buf = s.buf) (hbulk : t.bulk = s.bulk)
    (h : MemoryInv s) : MemoryInv t := by
  simpa only [MemoryInv, hpar, hbuf, hbulk] using h

/-- Every instruction keeps the memories sound. -/
theorem memoryInv_exec (i : Instr) (s t : State) (h : exec i s = .next t) (hm : MemoryInv s) : MemoryInv t := by
  obtain ⟨hwf, hcap, hbwf, hbv⟩ := hm
  have hpar : t.par = s.par := (exec_next_ends i s t h).1.2.1.1
  obtain ⟨hbuf, hbulk | hbulk⟩ := exec_memories i s t h
  · exact memoryInv_of_eq s t hpar hbuf hbulk ⟨hwf, hcap, hbwf, hbv⟩
  · simp only [MemoryInv, hpar, hbuf, hbulk]
    exact ⟨hwf, hcap, bulkReadWrites_wf _ _ hbwf, bulkReadWrites_valid _ _ hbv⟩

/-- A byte appended below PAYLOAD_CAP keeps the memories sound (20_memory.md R31). -/
theorem memoryInv_append (s t : State) (v : Byte) (h : bufAppend s v = .next t) (hm : MemoryInv s) : MemoryInv t := by
  obtain ⟨hwf, hcap, hbulk⟩ := hm
  obtain ⟨hroom, rfl⟩ := bufAppend_next s t v h
  refine ⟨Memory.wf_write _ _ _ hwf, fun c hc => ?_, hbulk⟩
  rcases sparseWrite_keys 0 s.buf s.bcnt.toNat v c hc with rfl | hc
  · exact hroom
  · exact hcap c hc

/-- Every handler keeps the memories sound: only the payload states append, and only the trailer states run an
instruction. -/
theorem memoryInv_handleByte (s t : State) (h : handleByte s = .next t) (hm : MemoryInv s) : MemoryInv t := by
  unfold handleByte at h
  rcases hs : s.st <;> simp only [hs] at h
  case p1Chk => exact memoryInv_exec _ s t (trailerByte_next _ _ _ h).2 hm
  case p2Crc2 => exact memoryInv_exec _ s t (trailerByte_next _ _ _ h).2 hm
  case p1Data =>
    obtain ⟨u, hu, rfl⟩ := (mapNext_eq_next ..).1 h
    exact memoryInv_append s u _ hu hm
  case p2Data =>
    obtain ⟨u, hu, rfl⟩ := (mapNext_eq_next ..).1 h
    exact memoryInv_append s u _ hu hm
  all_goals
    injection h with h
    subst h
  case idle => unfold idleByte; split <;> exact hm
  case pre2 => unfold pre2Byte; split <;> exact hm
  case rid => unfold ridByte; split <;> exact hm
  case rlen1 => unfold rlen1Byte; dsimp only; split_ifs <;> exact hm
  case p2Len2 => unfold p2Len2Byte; dsimp only; split_ifs <;> exact hm
  all_goals exact hm

/-! ### Every step keeps the invariant: the framing registers, handler by handler -/

theorem framingReset_frameReset (s : State) : FramingReset s.frameReset :=
  ⟨rfl, rfl, rfl, rfl, rfl, rfl, rfl, rfl, rfl, rfl, rfl, rfl⟩

/-- The accumulators start from the two preamble bytes' CRC (42_p2_decoder.md R67). -/
theorem crcOf_preamble (l : List Byte) : crcOf (0xFF :: 0xFF :: l) = crcBytes crcSeed l := by
  have hseed : crcUpd (crcUpd 0 0xFF) 0xFF = crcSeed := by decide
  simp only [crcOf, crcBytes, hseed]

theorem crcOf_append (l : List Byte) (b : Byte) : crcOf (l ++ [b]) = crcUpd (crcOf l) b := crcBytes_append 0 l b

/-- The payload count goes up without wrap-around (log 12). -/
theorem half_succ_toNat (n : Half) (h : n.toNat + 1 < 2 ^ 16) : (n + 1).toNat = n.toNat + 1 := by bv_omega

/-- The payload after an append is the payload and the byte. -/
theorem payloadOf_append (s : State) (v : Byte) (hwf : s.buf.wf = true) (hlt : s.bcnt.toNat + 1 < 2 ^ 16) :
    payloadOf { s with buf := s.buf.write s.bcnt.toNat v, bcnt := s.bcnt + 1 } = payloadOf s ++ [v] := by
  simp only [payloadOf, half_succ_toNat s.bcnt hlt, bufBytes_write_end _ _ _ hwf]

/-- Before the first append the payload is empty. -/
theorem payloadOf_of_bcnt_zero (s : State) (h : s.bcnt = 0) : payloadOf s = [] := by simp [payloadOf, h]

theorem framingInv_idleByte (s : State) (hst : s.st = .idle) (h : FramingReset s) : FramingInv (idleByte s) := by
  unfold idleByte
  split
  · obtain ⟨-, hproto, hhid, hid, hlen, hopc, hbcnt, hsum, hcrc, hrx, -, hpre⟩ := h
    exact ⟨⟨⟨hid, hlen, hopc, hbcnt, hrx⟩, hproto, hhid, hsum, hcrc⟩, hpre⟩
  · simpa only [FramingInv, hst] using h

theorem framingInv_pre2Byte (s : State) (h : NoIdYet s) : FramingInv (pre2Byte s) := by
  unfold pre2Byte
  split
  · exact h
  · exact framingReset_frameReset s

theorem framingInv_ridByte (s : State) (hst : s.st = .rid) (h : NoIdYet s) : FramingInv (ridByte s) := by
  unfold ridByte
  split
  · simp only [FramingInv, hst]
    exact h
  · rename_i hv
    obtain ⟨hframe, hproto, -⟩ := h
    exact ⟨hframe, hproto, hv, rfl, (crcOf_preamble [s.cur.v]).symm⟩

theorem framingInv_rlen1Byte (s : State) (hframe : NoFrameYet s) (hhid : s.hid ≠ 0xFF) (hsum : s.sum = s.hid)
    (hcrc : s.crc = crcOf [0xFF, 0xFF, s.hid]) : FramingInv (rlen1Byte s) := by
  unfold rlen1Byte
  dsimp only
  split_ifs with hp2 hshort hover
  · obtain ⟨hfd, hv⟩ := hp2
    refine ⟨⟨rfl, hfd⟩, hframe, ?_⟩
    rw [hcrc, hfd, hv]
    exact (crcOf_append [0xFF, 0xFF, 0xFD] 0x00).symm
  · exact framingReset_frameReset _
  · exact framingReset_frameReset _
  · obtain ⟨-, -, hopc, hbcnt, hrx⟩ := hframe
    have hv := s.cur.v.isLt
    refine ⟨⟨rfl, rfl, hhid, hrx, ?_, ?_, ?_⟩, hbcnt, hopc, ?_⟩
    · simpa only [State.goto_len, zext16_toNat] using not_lt.1 hshort
    · simp only [State.goto_len, zext16_toNat]
      omega
    · simpa using hover
    · simp [sumBytes, loByte_zext16, hsum]

/-- A Protocol 1 frame from its opcode on, with the trailer next exactly when all its payload is there (R61, R62). -/
theorem framingInv_p1_payload (t : State)
    (hst : t.st = if t.bcnt.toNat + 2 = t.len.toNat then .p1Chk else .p1Data) (hp1 : InP1 t)
    (hcnt : t.bcnt.toNat + 2 ≤ t.len.toNat) (hsum : t.sum = sumBytes 0 (p1Summed t)) : FramingInv t := by
  split at hst <;> simp only [FramingInv, hst]
  · exact ⟨hp1, ‹_›, hsum⟩
  · exact ⟨hp1, by omega, hsum⟩

theorem framingInv_p1InstByte (s : State) (hp1 : InP1 s) (hbcnt : s.bcnt = 0)
    (hsum : s.sum = sumBytes 0 [s.id, loByte s.len]) : FramingInv (p1InstByte s) := by
  have ⟨_, _, _, _, hlen, _⟩ := hp1
  refine framingInv_p1_payload _ ?_ hp1 ?_ ?_
  · simp [p1InstByte, hbcnt, eq_comm]
  · simpa [p1InstByte, hbcnt] using hlen
  · simp [p1InstByte, p1Summed, payloadOf_of_bcnt_zero, hbcnt, hsum, sumBytes]

theorem framingInv_p1DataByte (s t : State) (hwf : s.buf.wf = true) (h : p1DataByte s = .next t) (hp1 : InP1 s)
    (hcnt : s.bcnt.toNat + 2 < s.len.toNat) (hsum : s.sum = sumBytes 0 (p1Summed s)) : FramingInv t := by
  have hlt := s.len.isLt
  have hroom : s.bcnt.toNat + 1 < 2 ^ 16 := by omega
  obtain rfl := mapNext_bufAppend_next _ _ _ _ h
  refine framingInv_p1_payload _ rfl hp1 ?_ ?_
  · simp only [p1DataNext, half_succ_toNat s.bcnt hroom]
    omega
  · simp only [p1DataNext, hsum, ← sumBytes_append]
    exact congrArg (fun l => sumBytes 0 (s.id :: loByte s.len :: s.opc :: l))
      (payloadOf_append s s.cur.v hwf hroom).symm

theorem framingInv_p2IdByte (s : State) (hp2 : InP2 s) (hframe : NoFrameYet s)
    (hcrc : s.crc = crcOf [0xFF, 0xFF, 0xFD, 0x00]) : FramingInv (p2IdByte s) := by
  obtain ⟨-, hlen, hopc, hbcnt, hrx⟩ := hframe
  refine ⟨hp2, hlen, hopc, hbcnt, hrx, ?_⟩
  simp only [p2IdByte, hcrc, ← crcOf_append]
  rfl

theorem framingInv_p2Len1Byte (s : State) (hp2 : InP2 s) (hopc : s.opc = 0) (hbcnt : s.bcnt = 0) (hrx : s.rxLo = 0)
    (hcrc : s.crc = crcOf [0xFF, 0xFF, 0xFD, 0x00, s.id]) : FramingInv (p2Len1Byte s) := by
  have hv := s.cur.v.isLt
  refine ⟨hp2, ?_, hopc, hbcnt, hrx, ?_⟩
  · simp only [p2Len1Byte, zext16_toNat]
    omega
  · simp only [p2Len1Byte, loByte_zext16, hcrc, ← crcOf_append]
    rfl

theorem framingInv_p2Len2Byte (s : State) (hp2 : InP2 s) (hopc : s.opc = 0) (hbcnt : s.bcnt = 0) (hrx : s.rxLo = 0)
    (hcrc : s.crc = crcOf [0xFF, 0xFF, 0xFD, 0x00, s.id, loByte s.len]) : FramingInv (p2Len2Byte s) := by
  unfold p2Len2Byte
  dsimp only
  split_ifs with hshort hover
  · exact framingReset_frameReset _
  · exact framingReset_frameReset _
  · refine ⟨⟨hp2, not_lt.1 hshort, not_lt.1 hover⟩, hopc, hbcnt, hrx, ?_⟩
    simp only [State.goto_crc, State.goto_len, State.goto_id, loByte_le16, hiByte_le16, hcrc, ← crcOf_append]
    rfl

/-- A Protocol 2 frame from its opcode on, with the trailer next exactly when all its payload is there (R72, R73). -/
theorem framingInv_p2_payload (t : State)
    (hst : t.st = if t.bcnt.toNat + 3 = t.len.toNat then .p2Crc1 else .p2Data) (hp2 : InP2Sized t)
    (hrx : t.rxLo = 0) (hcnt : t.bcnt.toNat + 3 ≤ t.len.toNat) (hcrc : t.crc = crcOf (p2Crced t)) :
    FramingInv t := by
  split at hst <;> simp only [FramingInv, hst]
  · exact ⟨hp2, hrx, ‹_›, hcrc⟩
  · exact ⟨hp2, hrx, by omega, hcrc⟩

theorem framingInv_p2InstByte (s : State) (hp2 : InP2Sized s) (hbcnt : s.bcnt = 0) (hrx : s.rxLo = 0)
    (hcrc : s.crc = crcOf [0xFF, 0xFF, 0xFD, 0x00, s.id, loByte s.len, hiByte s.len]) :
    FramingInv (p2InstByte s) := by
  refine framingInv_p2_payload _ ?_ hp2 hrx ?_ ?_
  · simp [p2InstByte, hbcnt, eq_comm]
  · obtain ⟨-, hlen, -⟩ := hp2
    simpa [p2InstByte, hbcnt] using hlen
  · simp only [p2InstByte, p2Crced, payloadOf_of_bcnt_zero, hbcnt, hcrc, ← crcOf_append]
    rfl

theorem framingInv_p2DataByte (s t : State) (hwf : s.buf.wf = true) (h : p2DataByte s = .next t) (hp2 : InP2Sized s)
    (hrx : s.rxLo = 0) (hcnt : s.bcnt.toNat + 3 < s.len.toNat) (hcrc : s.crc = crcOf (p2Crced s)) :
    FramingInv t := by
  have hlt := s.len.isLt
  have hroom : s.bcnt.toNat + 1 < 2 ^ 16 := by omega
  obtain rfl := mapNext_bufAppend_next _ _ _ _ h
  refine framingInv_p2_payload _ rfl hp2 hrx ?_ ?_
  · simp only [p2DataNext, half_succ_toNat s.bcnt hroom]
    omega
  · simp only [p2DataNext, hcrc, ← crcOf_append]
    exact congrArg
      (fun l => crcOf (0xFF :: 0xFF :: 0xFD :: 0x00 :: s.id :: loByte s.len :: hiByte s.len :: s.opc :: l))
      (payloadOf_append s s.cur.v hwf hroom).symm

theorem framingInv_of_framingReset (s : State) (h : FramingReset s) : FramingInv s := by
  simpa only [FramingInv, h.1] using h

/-- A last trailer byte's handler ends the frame (41_p1_decoder.md R63, 42_p2_decoder.md R75). -/
theorem framingInv_trailerByte (p : Proto) (s t : State) (h : trailerByte p s = .next t) : FramingInv t :=
  framingInv_of_framingReset t (exec_next_ends _ _ _ (trailerByte_next p s t h).2).1.1

/-- Every handler leaves the framing registers as the framing state it goes to needs them. -/
theorem framingInv_handleByte (s t : State) (h : handleByte s = .next t) (hwf : s.buf.wf = true)
    (hf : FramingInv s) : FramingInv t := by
  unfold handleByte at h
  rcases hs : s.st <;> simp only [hs] at h <;> simp only [FramingInv, hs] at hf
  case p1Chk => exact framingInv_trailerByte .p1 s t h
  case p2Crc2 => exact framingInv_trailerByte .p2 s t h
  case p1Data =>
    obtain ⟨hp1, hcnt, hsum⟩ := hf
    exact framingInv_p1DataByte s t hwf h hp1 hcnt hsum
  case p2Data =>
    obtain ⟨hp2, hrx, hcnt, hcrc⟩ := hf
    exact framingInv_p2DataByte s t hwf h hp2 hrx hcnt hcrc
  all_goals
    injection h with h
    subst h
  case idle => exact framingInv_idleByte s hs hf
  case pre2 => exact framingInv_pre2Byte s hf.1
  case rid => exact framingInv_ridByte s hs hf
  case rlen1 =>
    obtain ⟨hframe, -, hhid, hsum, hcrc⟩ := hf
    exact framingInv_rlen1Byte s hframe hhid hsum hcrc
  case p1Inst =>
    obtain ⟨hp1, hbcnt, -, hsum⟩ := hf
    exact framingInv_p1InstByte s hp1 hbcnt hsum
  case p2Id =>
    obtain ⟨hp2, hframe, hcrc⟩ := hf
    exact framingInv_p2IdByte s hp2 hframe hcrc
  case p2Len1 =>
    obtain ⟨hp2, -, hopc, hbcnt, hrx, hcrc⟩ := hf
    exact framingInv_p2Len1Byte s hp2 hopc hbcnt hrx hcrc
  case p2Len2 =>
    obtain ⟨hp2, -, hopc, hbcnt, hrx, hcrc⟩ := hf
    exact framingInv_p2Len2Byte s hp2 hopc hbcnt hrx hcrc
  case p2Inst =>
    obtain ⟨hp2, -, hbcnt, hrx, hcrc⟩ := hf
    exact framingInv_p2InstByte s hp2 hbcnt hrx hcrc
  case p2Crc1 =>
    obtain ⟨hp2, -, hcnt, hcrc⟩ := hf
    exact ⟨hp2, hcnt, hcrc⟩

/-! ### Every step keeps the invariant -/

theorem inv_monitor (s : State) (h : Inv s) : Inv (monitor s) := by
  rcases monitor_cases s with ⟨hm, -⟩ | ⟨hm, -⟩ <;> rw [hm]
  · exact h
  · obtain ⟨herr, hmem, -⟩ := h
    exact ⟨herr, hmem, framingReset_frameReset s⟩

theorem inv_handleByte (s t : State) (hu : handleByte s = .next t) (h : Inv s) : Inv t := by
  obtain ⟨herr, hmem, hframing⟩ := h
  obtain ⟨-, hcfg, hcfgErr⟩ := handleByte_keeps_fixed s t hu
  refine ⟨?_, memoryInv_handleByte s t hu hmem, framingInv_handleByte s t hu hmem.1 hframing⟩
  rw [hcfgErr, herr, hcfg]

/-- Settles O48: the parts of a byte step (R55) keep it one after the other; taking the event and noting it as the
previous one touch nothing that it speaks of. -/
theorem everyStepKeepsTheInvariant : Obligations.EveryStepKeepsTheInvariant := by
  intro s t hinv h
  obtain ⟨-, ⟨-, rfl⟩ | ⟨b, rest, u, -, hu, rfl⟩⟩ := step_cases s t h
  · exact hinv
  have hpresent : Inv (s.present b rest) := hinv
  have hnext : Inv u := inv_handleByte _ u hu (inv_monitor _ hpresent)
  exact hnext

/-! ### The record's check value -/

/-- The running sum as a number: the sum of the bytes modulo 256 (41_p1_decoder.md R60). -/
theorem sumBytes_toNat (s : Byte) (l : List Byte) :
    (sumBytes s l).toNat = (s.toNat + (l.map fun x => x.toNat).sum) % 256 := by
  induction l generalizing s with
  | nil => simp [sumBytes, Nat.mod_eq_of_lt s.isLt]
  | cons b l ih =>
    simp only [sumBytes, ih, BitVec.toNat_add, List.map_cons, List.sum_cons]
    omega

/-- The record of an in-time last trailer byte is that of the opcode register and the payload in the buffer. -/
theorem step_trailer_record (p : Proto) (s t : State) (b : ByteEvent) (rest : List ByteEvent) (r : Record)
    (hb : Presents s b rest) (htime : ¬ Late s b)
    (htr : handleByte (s.present b rest) = trailerByte p (s.present b rest)) (h : step s = .next t)
    (hr : t.out = some r) :
    ∃ mn, RecordOf p mn s.opc (payloadOf s) (s.present b rest) r := by
  obtain ⟨herr, hi⟩ := hb
  rw [step_of_event s b rest herr hi, monitor_of_in_time s b rest htime, htr] at h
  obtain ⟨u, hu, rfl⟩ := (mapNext_eq_next ..).1 h
  obtain ⟨-, r', hr', hrec⟩ := exec_next_ends _ _ _ (trailerByte_next p _ u hu).2
  obtain rfl : r' = r := by simpa [hr'] using hr
  obtain ⟨hproto, hopc, hpay, -⟩ := decodeOp_sound p (s.present b rest).opc (payloadOf (s.present b rest))
  rw [hproto, hopc, hpay] at hrec
  exact ⟨_, hrec⟩

/-- Settles O41: the invariant's running sum and CRC are those of the frame's bytes, and the record carries them. -/
theorem recordedCheckIsThatOfTheFrame : Obligations.RecordedCheckIsThatOfTheFrame := by
  intro s t b rest r hinv hb htime h hr
  obtain ⟨-, -, hf⟩ := hinv
  constructor
  all_goals
    intro hst
    simp only [FramingInv, hst] at hf
  · obtain ⟨⟨-, -, -, -, -, hbyte, -⟩, hcnt, hsum⟩ := hf
    obtain ⟨mn, -, -, -, -, -, -, hpay, ⟨hexp, -⟩, -⟩ :=
      step_trailer_record .p1 s t b rest r hb htime (by simp [handleByte, hst]) h hr
    have hlo : (loByte s.len).toNat = s.len.toNat := by rw [loByte_toNat]; omega
    refine ⟨by simpa [hpay] using hcnt, ?_⟩
    rw [hexp, State.present_sum, hsum, sumBytes_toNat, hpay]
    simp [p1Summed, hlo, Nat.add_assoc]
  · obtain ⟨-, hcnt, hcrc⟩ := hf
    obtain ⟨mn, -, -, -, -, -, -, hpay, ⟨hexp, -⟩, -⟩ :=
      step_trailer_record .p2 s t b rest r hb htime (by simp [handleByte, hst]) h hr
    refine ⟨by simpa [hpay] using hcnt, ?_⟩
    rw [hexp, State.present_crc, hcrc, hpay]
    rfl

end Sys2Proof.Machine

/-! The register address space (20_memory.md R39): which addresses of a family its table holds, and what the lookup
gives for each. -/

namespace Sys2Proof.Machine

/-! ### The register lookup -/

/-- What the search of REGTAB finds is an entry of the table, at the family and the address asked for. -/
theorem regFind_eq_some {par : Params} {fam : Family} {a : Half} {e : RegEntry} (h : regFind par fam a = some e) :
    e ∈ par.regtab ∧ e.fam = fam ∧ e.addr = a := by
  obtain ⟨hfam, haddr⟩ : e.fam = fam ∧ e.addr = a := by simpa using List.find?_some h
  exact ⟨List.mem_of_find?_eq_some h, hfam, haddr⟩

/-- The search of REGTAB fails exactly at the addresses outside the family's table. -/
theorem regFind_eq_none_iff {par : Params} {fam : Family} {a : Half} :
    regFind par fam a = none ↔ ∀ e ∈ par.regtab, ¬ (e.fam = fam ∧ e.addr = a) := by
  simp [regFind]

theorem regLut_of_regFind_some {par : Params} {fam : Family} {a : Half} {e : RegEntry}
    (h : regFind par fam a = some e) :
    regLut par fam a = { known := true, name := some e.desc.name, width := e.desc.width } := by
  rw [regLut, h]

theorem regLut_of_regFind_none {par : Params} {fam : Family} {a : Half} (h : regFind par fam a = none) :
    regLut par fam a = { known := false, name := none, width := .w1 } := by
  rw [regLut, h, Config.unknownRegWidth]

/-- Settles O34, by what the search finds: an address of the table is found, with the one descriptor it is listed
with; another address is not found. -/
theorem lookupFindsTheTableEntry : Obligations.LookupFindsTheTableEntry := by
  intro par fam a
  refine ⟨fun d hmem hunique => ?_, fun hout => regLut_of_regFind_none (regFind_eq_none_iff.2 hout)⟩
  cases hfind : regFind par fam a with
  | none => exact absurd ⟨rfl, rfl⟩ (regFind_eq_none_iff.1 hfind _ hmem)
  | some e =>
    obtain ⟨he, hfam, haddr⟩ := regFind_eq_some hfind
    rw [regLut_of_regFind_some hfind, hunique e he hfam haddr]

end Sys2Proof.Machine

/-! The encodings (30_encoding.md): the opcode map, the round trips of the whole-frame decoder and encoder, the runs of
preamble bytes, and that the byte machine decodes what the encoder writes. -/

namespace Sys2Proof

open Sys2Proof.Machine

/-! ### The opcode map -/

/-- Settles O45: the map answers an instruction of the opcode (`decodeOp_sound`), and an instruction's mnemonic goes
with its opcode; an UNKNOWN one has none of the opcodes that the table names. -/
theorem opcodeMapIsTheTable : Obligations.OpcodeMapIsTheTable := by
  intro opc pay
  constructor
  · obtain ⟨hproto, hopc, -, hok⟩ := decodeOp_sound .p1 opc pay
    generalize decodeOp .p1 opc pay = i at hproto hopc hok
    subst hopc
    cases i <;> simp only [Instr.proto, reduceCtorEq] at hproto
    case p1Unknown opc _ =>
      simp only [Instr.opcodeOk, Instr.mnemonic, Instr.opcode] at hok ⊢
      revert opc
      decide
    all_goals rfl
  · obtain ⟨hproto, hopc, -, hok⟩ := decodeOp_sound .p2 opc pay
    generalize decodeOp .p2 opc pay = i at hproto hopc hok
    subst hopc
    cases i <;> simp only [Instr.proto, reduceCtorEq] at hproto
    case p2Unknown opc _ =>
      simp only [Instr.opcodeOk, Instr.mnemonic, Instr.opcode] at hok ⊢
      revert opc
      decide
    all_goals rfl

/-! ### What the frame decoder accepts -/

/-- Everything a Protocol 1 frame can be after its ID and LEN bytes (R44). -/
theorem decodeP1_eq_ok_iff (cap : Nat) (id len : Byte) (bytes : List Byte) (d : Decoded) :
    decodeP1 cap id len bytes = .ok d ↔
      ∃ opc pay chk rest, bytes = opc :: (pay ++ chk :: rest) ∧ len.toNat = pay.length + 2 ∧ pay.length ≤ cap ∧
        d = { id, instr := decodeOp .p1 opc pay, chkExp := zext16 (checksum (id :: len :: opc :: pay)),
              chkAct := zext16 chk, rest } := by
  constructor
  · intro h
    unfold decodeP1 at h
    split_ifs at h with hshort hover
    rcases bytes with _ | ⟨opc, tail⟩
    · cases h
    dsimp only at h
    split at h
    · cases h
    · rename_i chk rest hdrop
      have hlt : len.toNat - 2 < tail.length := by
        by_contra hge
        simp [List.drop_eq_nil_of_le (not_lt.1 hge)] at hdrop
      have hlen : (tail.take (len.toNat - 2)).length = len.toNat - 2 := List.length_take_of_le hlt.le
      refine ⟨opc, tail.take (len.toNat - 2), chk, rest, ?_, by omega, by omega, (Except.ok.inj h).symm⟩
      rw [← hdrop, List.take_append_drop]
  · rintro ⟨opc, pay, chk, rest, rfl, hlen, hcap, rfl⟩
    have hn : len.toNat - 2 = pay.length := by omega
    rw [decodeP1, if_neg (by omega), if_neg (by omega)]
    simp [hn]

/-- Everything a Protocol 2 frame can be after its preamble and FD 00 (R45). -/
theorem decodeP2_eq_ok_iff (cap : Nat) (bytes : List Byte) (d : Decoded) :
    decodeP2 cap bytes = .ok d ↔
      ∃ id lenL lenH opc pay crcL crcH rest,
        bytes = id :: lenL :: lenH :: opc :: (pay ++ crcL :: crcH :: rest) ∧
        (le16 lenL lenH).toNat = pay.length + 3 ∧ pay.length ≤ cap ∧
        d = { id, instr := decodeOp .p2 opc pay,
              chkExp := crcOf (0xFF :: 0xFF :: 0xFD :: 0x00 :: id :: lenL :: lenH :: opc :: pay),
              chkAct := le16 crcL crcH, rest } := by
  constructor
  · intro h
    unfold decodeP2 at h
    split at h
    · rename_i id lenL lenH more
      dsimp only at h
      split_ifs at h with hshort hover
      rcases more with _ | ⟨opc, tail⟩
      · cases h
      dsimp only at h
      split at h
      · rename_i crcL crcH rest hdrop
        have hlt : (le16 lenL lenH).toNat - 3 < tail.length := by
          by_contra hge
          simp [List.drop_eq_nil_of_le (not_lt.1 hge)] at hdrop
        have hlen : (tail.take ((le16 lenL lenH).toNat - 3)).length = (le16 lenL lenH).toNat - 3 :=
          List.length_take_of_le hlt.le
        refine ⟨id, lenL, lenH, opc, tail.take ((le16 lenL lenH).toNat - 3), crcL, crcH, rest, ?_, by omega, by omega,
          (Except.ok.inj h).symm⟩
        rw [← hdrop, List.take_append_drop]
      · cases h
    · cases h
  · rintro ⟨id, lenL, lenH, opc, pay, crcL, crcH, rest, rfl, hlen, hcap, rfl⟩
    have hn : (le16 lenL lenH).toNat - 3 = pay.length := by omega
    rw [decodeP2]
    dsimp only
    rw [if_neg (by omega), if_neg (by omega)]
    simp [hn]

/-- Everything a frame can be: a preamble, and after it a frame of the protocol that the next two bytes select
(R47). -/
theorem decodeFrame_eq_ok_iff (cap : Nat) (bytes : List Byte) (d : Decoded) :
    decodeFrame cap bytes = .ok d ↔
      ∃ id len more, bytes = 0xFF :: 0xFF :: id :: len :: more ∧ id ≠ 0xFF ∧
        (if id = 0xFD ∧ len = 0x00 then decodeP2 cap more else decodeP1 cap id len more) = .ok d := by
  constructor
  · intro h
    unfold decodeFrame at h
    split at h
    · rename_i f0 f1 id len more
      by_cases hpre : f0 ≠ 0xFF ∨ f1 ≠ 0xFF
      · cases (if_pos hpre).symm.trans h
      by_cases hid : id = 0xFF
      · cases (if_pos hid).symm.trans ((if_neg hpre).symm.trans h)
      rw [if_neg hpre, if_neg hid] at h
      obtain ⟨rfl, rfl⟩ : f0 = 0xFF ∧ f1 = 0xFF := by simpa using hpre
      exact ⟨id, len, more, rfl, hid, h⟩
    · cases h
  · rintro ⟨id, len, more, rfl, hid, h⟩
    rw [decodeFrame, if_neg (by simp), if_neg hid]
    exact h

/-! ### The round trips -/

/-- The wire bytes of a Protocol 1 frame, in their order (R44). -/
theorem encodeRaw_p1 (id opc : Byte) (pay : List Byte) :
    encodeRaw .p1 id opc pay = 0xFF :: 0xFF :: id :: BitVec.ofNat 8 (pay.length + 2) :: opc ::
      (pay ++ [checksum (p1Body id opc pay)]) := rfl

/-- The wire bytes of a Protocol 2 frame, in their order (R45). -/
theorem encodeRaw_p2 (id opc : Byte) (pay : List Byte) :
    encodeRaw .p2 id opc pay = 0xFF :: 0xFF :: 0xFD :: 0x00 :: id :: loByte (BitVec.ofNat 16 (pay.length + 3)) ::
      hiByte (BitVec.ofNat 16 (pay.length + 3)) :: opc ::
      (pay ++ [loByte (crcOf (p2Body id opc pay)), hiByte (crcOf (p2Body id opc pay))]) := rfl

/-- The length byte of Protocol 1 does not wrap (R44). -/
theorem p1_length_toNat (n : Nat) (h : n ≤ maxPayload .p1) : (BitVec.ofNat 8 (n + 2)).toNat = n + 2 := by
  simp only [maxPayload] at h
  simp only [BitVec.toNat_ofNat]
  omega

/-- No Protocol 1 frame has the length byte that selects Protocol 2 (R47). -/
theorem p1_length_ne_zero (n : Nat) (h : n ≤ maxPayload .p1) : BitVec.ofNat 8 (n + 2) ≠ 0x00 := by
  intro h0
  have hlen := p1_length_toNat n h
  simp [h0] at hlen

/-- The length field of Protocol 2 does not wrap (R45). -/
theorem p2_length_toNat (n : Nat) (h : n ≤ maxPayload .p2) : (BitVec.ofNat 16 (n + 3)).toNat = n + 3 := by
  simp only [maxPayload] at h
  simp only [BitVec.toNat_ofNat]
  omega

/-- Decoding the wire bytes of a protocol, an ID, an opcode and a payload (R44, R45). -/
theorem decodeFrame_encodeRaw (cap : Nat) (p : Proto) (id opc : Byte) (pay rest : List Byte) (hid : idOk p id = true)
    (hmax : pay.length ≤ maxPayload p) (hcap : pay.length ≤ cap) :
    ∃ x, decodeFrame cap (encodeRaw p id opc pay ++ rest) =
      .ok { id, instr := decodeOp p opc pay, chkExp := x, chkAct := x, rest } := by
  cases p
  · refine ⟨zext16 (checksum (p1Body id opc pay)), (decodeFrame_eq_ok_iff ..).2
      ⟨id, _, _, rfl, by simpa [idOk] using hid, ?_⟩⟩
    rw [if_neg fun hp2 => p1_length_ne_zero _ hmax hp2.2]
    exact (decodeP1_eq_ok_iff ..).2 ⟨opc, pay, _, rest, by simp, p1_length_toNat _ hmax, hcap, rfl⟩
  · refine ⟨crcOf (p2Body id opc pay), (decodeFrame_eq_ok_iff ..).2 ⟨0xFD, 0x00, _, rfl, by decide, ?_⟩⟩
    rw [if_pos ⟨rfl, rfl⟩]
    refine (decodeP2_eq_ok_iff ..).2 ⟨id, loByte (BitVec.ofNat 16 (pay.length + 3)),
      hiByte (BitVec.ofNat 16 (pay.length + 3)), opc, pay, loByte (crcOf (p2Body id opc pay)),
      hiByte (crcOf (p2Body id opc pay)), rest, by simp, ?_, hcap, ?_⟩
    · rw [le16_loByte_hiByte, p2_length_toNat _ hmax]
    · rw [le16_loByte_hiByte]
      rfl

/-- Settles O43: the opcode map gives the instruction back from its opcode and payload (`decodeOp_of_wf`). -/
theorem decodeOfEncodeIsTheFrame : Obligations.DecodeOfEncodeIsTheFrame := by
  intro cap id i rest hframe hcap
  obtain ⟨hid, hwf⟩ : idOk i.proto id = true ∧ i.wf = true := by simpa [frameWf] using hframe
  obtain ⟨hmax, -⟩ : i.payload.length ≤ maxPayload i.proto ∧ i.opcodeOk = true := by simpa [Instr.wf] using hwf
  simpa only [encode, decodeOp_of_wf i hwf] using
    decodeFrame_encodeRaw cap i.proto id i.opcode i.payload rest hid hmax hcap

/-- What the opcode map answers encodes as the frame of its protocol, opcode and payload. -/
theorem encode_decodeOp (p : Proto) (id opc : Byte) (pay : List Byte) :
    encode id (decodeOp p opc pay) = encodeRaw p id opc pay := by
  obtain ⟨hproto, hopc, hpay, -⟩ := decodeOp_sound p opc pay
  rw [encode, hproto, hopc, hpay]

/-- What the opcode map answers is well-formed where the ID and the payload's length are the protocol's. -/
theorem frameWf_decodeOp (p : Proto) (id opc : Byte) (pay : List Byte) (hid : idOk p id = true)
    (hmax : pay.length ≤ maxPayload p) : frameWf id (decodeOp p opc pay) = true := by
  obtain ⟨hproto, -, hpay, hok⟩ := decodeOp_sound p opc pay
  simp [frameWf, Instr.wf, hproto, hpay, hok, hid, hmax]

theorem payload_decodeOp (p : Proto) (opc : Byte) (pay : List Byte) : (decodeOp p opc pay).payload = pay :=
  (decodeOp_sound p opc pay).2.2.1

/-- Settles O44: an accepted length field is the one that the encoder writes for the payload it delimits, and a right
trailer is the one that it computes. -/
theorem encodeOfDecodeIsTheBytes : Obligations.EncodeOfDecodeIsTheBytes := by
  intro cap bytes d h hchk
  obtain ⟨id0, len0, more, rfl, hid, hframe⟩ := (decodeFrame_eq_ok_iff ..).1 h
  split_ifs at hframe with hp2
  · obtain ⟨rfl, rfl⟩ := hp2
    obtain ⟨id, lenL, lenH, opc, pay, crcL, crcH, rest, rfl, hlen, hcap, rfl⟩ := (decodeP2_eq_ok_iff ..).1 hframe
    dsimp only at hchk
    have hmax : pay.length ≤ maxPayload .p2 := by
      have := (le16 lenL lenH).isLt
      simp only [maxPayload]
      omega
    have hbody : 0xFF :: 0xFF :: 0xFD :: 0x00 :: id :: lenL :: lenH :: opc :: pay = p2Body id opc pay := by
      simp [p2Body, ← hlen, loByte_le16, hiByte_le16]
    refine ⟨frameWf_decodeOp .p2 id opc pay rfl hmax, by rwa [payload_decodeOp], ?_⟩
    simp only [encode_decodeOp, encodeRaw, ← hbody, hchk, loByte_le16, hiByte_le16]
    simp
  · obtain ⟨opc, pay, chk, rest, rfl, hlen, hcap, rfl⟩ := (decodeP1_eq_ok_iff ..).1 hframe
    dsimp only at hchk
    have hmax : pay.length ≤ maxPayload .p1 := by
      have := len0.isLt
      simp only [maxPayload]
      omega
    have hbody : id0 :: len0 :: opc :: pay = p1Body id0 opc pay := by simp [p1Body, ← hlen]
    have hsum : checksum (id0 :: len0 :: opc :: pay) = chk := by
      rw [← loByte_zext16 (checksum _), hchk, loByte_zext16]
    refine ⟨frameWf_decodeOp .p1 id0 opc pay (by simpa [idOk] using hid) hmax, by rwa [payload_decodeOp], ?_⟩
    simp only [encode_decodeOp, encodeRaw, ← hbody, hsum]
    simp

end Sys2Proof

namespace Sys2Proof.Machine

/-! ### Runs -/

/-- A run of one more step begins with a step. -/
theorem run_succ_iff (M : Host.Core) (n : Nat) (s u : M.State) :
    M.run (n + 1) s = .next u ↔ ∃ t, M.step s = .next t ∧ M.run n t = .next u := by
  rw [Host.Core.run.eq_def]
  dsimp only
  cases M.step s <;> simp

theorem runsTo_succ_iff (n : Nat) (s u : State) : RunsTo (n + 1) s u ↔ ∃ t, step s = .next t ∧ RunsTo n t u :=
  run_succ_iff Sys2Proof.core n s u

theorem runsTo_zero (s : State) : RunsTo 0 s s := rfl

/-- A run can be lengthened at its end. -/
theorem runsTo_snoc (n : Nat) (s t u : State) (h : RunsTo n s t) (hstep : step t = .next u) : RunsTo (n + 1) s u := by
  induction n generalizing s with
  | zero =>
    obtain rfl : s = t := Host.Outcome.next.inj h
    exact (runsTo_succ_iff ..).2 ⟨u, hstep, runsTo_zero u⟩
  | succ n ih =>
    obtain ⟨r, hr, hrest⟩ := (runsTo_succ_iff ..).1 h
    exact (runsTo_succ_iff ..).2 ⟨r, hr, ih r hrest⟩

/-- The step of a byte event in IDLE, or of one that is in time: its handler's (R55). -/
theorem step_of_handleByte (s w : State) (b : ByteEvent) (rest : List ByteEvent) (herr : s.cfgErr = false)
    (hi : s.input = b :: rest) (htime : s.st = .idle ∨ ¬ Late s b) (hw : handleByte (s.present b rest) = .next w) :
    step s = .next (w.setLastByte b) := by
  have hm : monitor (s.present b rest) = s.present b rest :=
    htime.elim (monitor_of_idle s b rest) (monitor_of_in_time s b rest)
  rw [step_of_event s b rest herr hi, hm, hw, mapNext_next]

/-- `NoGaps` is a chain of neighbours, so that the library splits it. -/
theorem noGaps_iff_isChain (par : Params) (l : List ByteEvent) :
    NoGaps par l ↔ l.IsChain fun a b => ¬ LateAfter par a.ts a.te b := by
  induction l with
  | nil => simp [NoGaps]
  | cons a l ih =>
    cases l with
    | nil => simp [NoGaps]
    | cons b l => rw [NoGaps, ih, List.isChain_cons_cons]

/-! ### Runs of preamble bytes -/

theorem idleByte_preamble (s : State) (h : s.cur.v = 0xFF) :
    idleByte s = { s with tStart := s.cur.ts, st := .pre2 } := if_pos h

theorem pre2Byte_preamble (s : State) (h : s.cur.v = 0xFF) :
    pre2Byte s = { s with tPre2 := s.cur.ts, st := .rid } := if_pos h

theorem ridByte_preamble (s : State) (h : s.cur.v = 0xFF) :
    ridByte s = { s with tStart := s.tPre2, tPre2 := s.cur.ts } := if_pos h

/-- The state `s` after a run of preamble bytes whose last two are `x` and `y` (R46, R58). -/
def afterPreambleRun (s : State) (x y : ByteEvent) (rest : List ByteEvent) : State :=
  { s with input := rest, cur := y, out := none, tLastS := y.ts, tLastE := y.te, tStart := x.ts, tPre2 := y.ts,
           st := .rid }

/-- Two preamble bytes lead from IDLE to RID (R56, R57). -/
theorem runsTo_afterPreambleRun (s : State) (x y : ByteEvent) (rest : List ByteEvent) (herr : s.cfgErr = false)
    (hst : s.st = .idle) (hi : s.input = x :: y :: rest) (hx : x.v = 0xFF) (hy : y.v = 0xFF)
    (htime : ¬ LateAfter s.par x.ts x.te y) : RunsTo 2 s (afterPreambleRun s x y rest) := by
  have hidle : handleByte (s.present x (y :: rest)) = .next (idleByte (s.present x (y :: rest))) := by
    simp [handleByte, hst]
  rw [idleByte_preamble _ hx] at hidle
  have hfirst : step s = .next { afterByte s x (y :: rest) with tStart := x.ts, st := .pre2 } :=
    step_of_handleByte s _ x _ herr hi (.inl hst) hidle
  have hsecond := step_of_handleByte { afterByte s x (y :: rest) with tStart := x.ts, st := .pre2 } _ y rest herr rfl
    (.inr htime) (congrArg Host.Outcome.next (pre2Byte_preamble (State.present _ y rest) hy))
  exact (runsTo_succ_iff ..).2 ⟨_, hfirst, (runsTo_succ_iff ..).2 ⟨_, hsecond, runsTo_zero _⟩⟩

/-- A further preamble byte slides the window (R58). -/
theorem step_afterPreambleRun (s : State) (w x y : ByteEvent) (rest : List ByteEvent) (herr : s.cfgErr = false)
    (hy : y.v = 0xFF) (htime : ¬ LateAfter s.par x.ts x.te y) :
    step (afterPreambleRun s w x (y :: rest)) = .next (afterPreambleRun s x y rest) := by
  exact step_of_handleByte (afterPreambleRun s w x (y :: rest)) _ y rest herr rfl (.inr htime)
    (congrArg Host.Outcome.next (ridByte_preamble _ hy))

/-- Settles O7, by induction on the run from its end: the byte before the last two has led to RID already. -/
theorem preambleRunsKeepTheLastTwo : Obligations.PreambleRunsKeepTheLastTwo := by
  intro s run rest x y herr hst hi hff hgaps
  rw [noGaps_iff_isChain] at hgaps
  change RunsTo (run.length + 2) s (afterPreambleRun s x y rest)
  induction run using List.reverseRecOn generalizing x y rest with
  | nil =>
    exact runsTo_afterPreambleRun s x y rest herr hst hi (hff x (by simp)) (hff y (by simp)) (by simpa using hgaps)
  | append_singleton run w ih =>
    obtain ⟨hbefore, htime, -⟩ := List.isChain_append_cons_cons.1 hgaps
    have hrun := ih (y :: rest) w x (by simpa using hi) (fun b hb => hff b (by simp at hb ⊢; tauto))
      (by simpa using hbefore)
    rw [List.length_append, List.length_singleton]
    exact runsTo_snoc _ s _ _ hrun (step_afterPreambleRun s w x y rest herr (hff y (by simp)) htime)

/-! ### The handlers of the header, case by case -/

theorem ridByte_id (s : State) (h : s.cur.v ≠ 0xFF) :
    ridByte s = { s with hid := s.cur.v, sum := s.cur.v, crc := crcUpd crcSeed s.cur.v, st := .rlen1 } := if_neg h

theorem rlen1Byte_p2 (s : State) (h : s.hid = 0xFD ∧ s.cur.v = 0x00) :
    rlen1Byte s = { s with proto := some .p2, crc := crcUpd s.crc s.cur.v, st := .p2Id } := if_pos h

theorem rlen1Byte_p1 (s : State) (h : ¬ (s.hid = 0xFD ∧ s.cur.v = 0x00)) (hmin : 2 ≤ s.cur.v.toNat)
    (hcap : s.cur.v.toNat - 2 ≤ s.par.payloadCap) :
    rlen1Byte s = { s with proto := some .p1, id := s.hid, len := zext16 s.cur.v, sum := s.sum + s.cur.v,
                           st := .p1Inst } := by
  rw [rlen1Byte, if_neg h, if_neg (by omega), if_neg (by omega)]
  rfl

theorem p2Len2Byte_accepted (s : State) (hmin : 3 ≤ (le16 (loByte s.len) s.cur.v).toNat)
    (hcap : (le16 (loByte s.len) s.cur.v).toNat - 3 ≤ s.par.payloadCap) :
    p2Len2Byte s = { s with len := le16 (loByte s.len) s.cur.v, crc := crcUpd s.crc s.cur.v, st := .p2Inst } := by
  rw [p2Len2Byte, if_neg (by omega), if_neg (by omega)]
  rfl

/-! ### What stays over several steps -/

theorem FixedKept.trans {s t u : State} (h : FixedKept s t) (h' : FixedKept t u) : FixedKept s u :=
  ⟨h'.1.trans h.1, h'.2.1.trans h.2.1, h'.2.2.trans h.2.2⟩

theorem LastOpcKept.trans {s t u : State} (h : LastOpcKept s t) (h' : LastOpcKept t u) : LastOpcKept s u :=
  ⟨h'.1.trans h.1, h'.2.trans h.2⟩

theorem LastReadKept.trans {s t u : State} (h : LastReadKept s t) (h' : LastReadKept t u) : LastReadKept s u :=
  ⟨h'.1.trans h.1, h'.2.1.trans h.2.1, h'.2.2.trans h.2.2⟩

/-! ### A whole frame: what holds inside it, and what its end leaves -/

/-- The state `u` lies inside the frame that `first` began in state `s`: the invariant holds, nothing outside the
framing state has changed, and the events to come begin with those of `bytes`, none of them late and `last` the last
of them; `rest` is what follows the frame. -/
structure InFrame (s : State) (first last : ByteEvent) (rest : List ByteEvent) (bytes : List Byte) (u : State) :
    Prop where
  inv : Inv u
  ready : u.cfgErr = false
  tStart : u.tStart = first.ts
  fixed : FixedKept s u
  lastOpc : LastOpcKept s u
  lastRead : LastReadKept s u
  bulk : u.bulk = s.bulk
  tLastS : u.tLastS = u.cur.ts
  tLastE : u.tLastE = u.cur.te
  events : ∃ todo, u.input = todo ++ rest ∧ todo.map (fun b => b.v) = bytes ∧ NoGaps u.par (u.cur :: todo) ∧
    (u.cur :: todo).getLast? = some last

/-- From `w`, `n` steps end a frame of the instruction `i` to or from `id`, which `first` began in state `s`. -/
def Completes (s : State) (id : Byte) (i : Instr) (first last : ByteEvent) (rest : List ByteEvent) (n : Nat)
    (w : State) : Prop :=
  ∃ (t u v : State) (r : Record), RunsTo n w t ∧ t.input = rest ∧ FramingReset t ∧
    t.out = some r ∧ r.op = i.mnemonic ∧ r.proto = i.proto ∧ r.id = id ∧ r.opc = i.opcode ∧
    r.payload = i.payload ∧ r.chkOk = true ∧ r.tStart = first.ts ∧ r.tEnd = last.te ∧
    exec i u = .next v ∧ FixedKept s u ∧ LastOpcKept s u ∧ LastReadKept s u ∧ BulkKept s u ∧
    t = { v with tLastS := t.tLastS, tLastE := t.tLastE }

section
variable {s u : State} {first last : ByteEvent} {rest : List ByteEvent} {x id opc : Byte} {bytes : List Byte}
  {i : Instr}

theorem Completes.of_step {n : Nat} {t : State} (hstep : step u = .next t)
    (h : Completes s id i first last rest n t) : Completes s id i first last rest (n + 1) u := by
  obtain ⟨t', u', v, r, hrun, hend⟩ := h
  exact ⟨t', u', v, r, (runsTo_succ_iff ..).2 ⟨t, hstep, hrun⟩, hend⟩

/-- The next byte of the frame: it is in time, and the bytes after it are still to come. -/
theorem InFrame.next_event (h : InFrame s first last rest (x :: bytes) u) :
    ∃ b todo, b.v = x ∧ u.input = b :: (todo ++ rest) ∧ ¬ Late u b ∧ todo.map (fun b => b.v) = bytes ∧
      NoGaps u.par (b :: todo) ∧ (b :: todo).getLast? = some last := by
  obtain ⟨todo, hin, hmap, hgaps, hlast⟩ := h.events
  obtain ⟨b, todo, rfl, hb, htodo⟩ := List.map_eq_cons_iff.1 hmap
  obtain ⟨htime, hgaps⟩ := hgaps
  refine ⟨b, todo, hb, hin, ?_, htodo, hgaps, by simpa using hlast⟩
  rwa [Late, h.tLastS, h.tLastE]

/-- A byte that is no last trailer byte: where its handler goes on and keeps the start time, the step goes on and stays
inside the frame, with whatever else `P` the handler leaves. -/
theorem InFrame.advance {P : State → Prop} (h : InFrame s first last rest (x :: bytes) u)
    (hst : u.st ≠ .p1Chk ∧ u.st ≠ .p2Crc2)
    (hb : ∀ b more, b.v = x →
      ∃ w, handleByte (u.present b more) = .next w ∧ w.tStart = u.tStart ∧ P (w.setLastByte b)) :
    ∃ t, step u = .next t ∧ InFrame s first last rest bytes t ∧ P t := by
  obtain ⟨b, todo, hv, hin, htime, htodo, hgaps, hlast⟩ := h.next_event
  obtain ⟨w, hw, hstart, hP⟩ := hb b (todo ++ rest) hv
  have hstep := step_of_handleByte u w b _ h.ready hin (.inr htime) hw
  have hquiet : Quiet (u.present b (todo ++ rest)) w := by
    refine (handleByte_cases _ w hw).resolve_right ?_
    rintro ⟨p, hp, -⟩
    cases p
    · exact hst.1 hp
    · exact hst.2 hp
  refine ⟨_, hstep, ?_, hP⟩
  have hcur : w.cur = b := hquiet.cur
  have hpar : w.par = u.par := hquiet.fixed.1
  exact {
    inv := everyStepKeepsTheInvariant u _ h.inv hstep
    ready := hquiet.fixed.2.2.trans h.ready
    tStart := hstart.trans h.tStart
    fixed := h.fixed.trans hquiet.fixed
    lastOpc := h.lastOpc.trans hquiet.lastOpc
    lastRead := h.lastRead.trans hquiet.lastRead
    bulk := hquiet.bulk.trans h.bulk
    tLastS := by simp [hcur]
    tLastE := by simp [hcur]
    events := ⟨todo, hquiet.input, htodo, by simpa [hcur, hpar] using hgaps, by simpa [hcur] using hlast⟩ }

/-! ### The header, byte by byte -/

/-- The second preamble byte (R57). -/
theorem InFrame.second_preamble (h : InFrame s first last rest (0xFF :: bytes) u) (hst : u.st = .pre2) :
    ∃ t, step u = .next t ∧ InFrame s first last rest bytes t ∧ t.st = .rid := by
  refine h.advance (by simp [hst]) fun b more hv => ⟨pre2Byte (u.present b more), by simp [handleByte, hst], ?_⟩
  rw [pre2Byte_preamble _ hv]
  exact ⟨rfl, rfl⟩

/-- The byte after the preamble: the ID, or the first byte of Protocol 2's trigger (R58). -/
theorem InFrame.id_byte (h : InFrame s first last rest (x :: bytes) u) (hst : u.st = .rid) (hx : x ≠ 0xFF) :
    ∃ t, step u = .next t ∧ InFrame s first last rest bytes t ∧ t.st = .rlen1 ∧ t.hid = x := by
  refine h.advance (by simp [hst]) fun b more hv => ⟨ridByte (u.present b more), by simp [handleByte, hst], ?_⟩
  rw [ridByte_id _ (hv.trans_ne hx)]
  exact ⟨rfl, rfl, hv⟩

/-- The length byte of Protocol 1 (R59). -/
theorem InFrame.p1_length (h : InFrame s first last rest (x :: bytes) u) (hst : u.st = .rlen1)
    (hp1 : ¬ (u.hid = 0xFD ∧ x = 0x00)) (hmin : 2 ≤ x.toNat) (hcap : x.toNat - 2 ≤ u.par.payloadCap) :
    ∃ t, step u = .next t ∧ InFrame s first last rest bytes t ∧ t.st = .p1Inst ∧ t.id = u.hid ∧ t.len = zext16 x := by
  refine h.advance (by simp [hst]) fun b more hv => ⟨rlen1Byte (u.present b more), by simp [handleByte, hst], ?_⟩
  subst hv
  rw [rlen1Byte_p1 (u.present b more) hp1 hmin hcap]
  exact ⟨rfl, rfl, rfl, rfl⟩

/-- The byte that selects Protocol 2 (R47, R59). -/
theorem InFrame.p2_trigger (h : InFrame s first last rest (0x00 :: bytes) u) (hst : u.st = .rlen1)
    (hhid : u.hid = 0xFD) : ∃ t, step u = .next t ∧ InFrame s first last rest bytes t ∧ t.st = .p2Id := by
  refine h.advance (by simp [hst]) fun b more hv => ⟨rlen1Byte (u.present b more), by simp [handleByte, hst], ?_⟩
  rw [rlen1Byte_p2 (u.present b more) ⟨hhid, hv⟩]
  exact ⟨rfl, rfl⟩

/-- The ID byte of Protocol 2 (R69). -/
theorem InFrame.p2_id (h : InFrame s first last rest (x :: bytes) u) (hst : u.st = .p2Id) :
    ∃ t, step u = .next t ∧ InFrame s first last rest bytes t ∧ t.st = .p2Len1 ∧ t.id = x :=
  h.advance (by simp [hst]) fun b more hv =>
    ⟨p2IdByte (u.present b more), by simp [handleByte, hst], rfl, rfl, hv⟩

/-- The low length byte of Protocol 2 (R70). -/
theorem InFrame.p2_low_length (h : InFrame s first last rest (x :: bytes) u) (hst : u.st = .p2Len1) :
    ∃ t, step u = .next t ∧ InFrame s first last rest bytes t ∧ t.st = .p2Len2 ∧ t.id = u.id ∧ t.len = zext16 x :=
  h.advance (by simp [hst]) fun b more hv =>
    ⟨p2Len1Byte (u.present b more), by simp [handleByte, hst], rfl, rfl, rfl, congrArg zext16 hv⟩

/-- The high length byte of Protocol 2, with the length check (R71). -/
theorem InFrame.p2_high_length (h : InFrame s first last rest (x :: bytes) u) (hst : u.st = .p2Len2)
    (hmin : 3 ≤ (le16 (loByte u.len) x).toNat) (hcap : (le16 (loByte u.len) x).toNat - 3 ≤ u.par.payloadCap) :
    ∃ t, step u = .next t ∧ InFrame s first last rest bytes t ∧ t.st = .p2Inst ∧ t.id = u.id ∧
      t.len = le16 (loByte u.len) x := by
  refine h.advance (by simp [hst]) fun b more hv => ⟨p2Len2Byte (u.present b more), by simp [handleByte, hst], ?_⟩
  subst hv
  rw [p2Len2Byte_accepted (u.present b more) hmin hcap]
  exact ⟨rfl, rfl, rfl, rfl⟩

/-! ### The payload, for both protocols -/

/-- The framing state of a payload byte (R62, R73). -/
def payloadSt : Proto → FsmState
  | .p1 => .p1Data
  | .p2 => .p2Data

/-- The framing state of the first trailer byte (R63, R74). -/
def trailerSt : Proto → FsmState
  | .p1 => .p1Chk
  | .p2 => .p2Crc1

/-- How much a declared length counts beside the payload (R44, R45). -/
def overhead : Proto → Nat
  | .p1 => 2
  | .p2 => 3

/-- What a payload byte's handler does beside the append. -/
def dataNext : Proto → State → State
  | .p1 => p1DataNext
  | .p2 => p2DataNext

theorem handleByte_payload (p : Proto) (s : State) (h : s.st = payloadSt p) :
    handleByte s = mapNext (dataNext p) (bufAppend s s.cur.v) := by
  cases p <;> simp only [payloadSt] at h <;> simp only [handleByte, h] <;> rfl

theorem dataNext_st (p : Proto) (s : State) :
    (dataNext p s).st = if s.bcnt.toNat + overhead p = s.len.toNat then trailerSt p else payloadSt p := by
  cases p <;> rfl

@[simp] theorem dataNext_id (p : Proto) (s : State) : (dataNext p s).id = s.id := by cases p <;> rfl
@[simp] theorem dataNext_opc (p : Proto) (s : State) : (dataNext p s).opc = s.opc := by cases p <;> rfl
@[simp] theorem dataNext_len (p : Proto) (s : State) : (dataNext p s).len = s.len := by cases p <;> rfl
@[simp] theorem dataNext_bcnt (p : Proto) (s : State) : (dataNext p s).bcnt = s.bcnt := by cases p <;> rfl
@[simp] theorem dataNext_tStart (p : Proto) (s : State) : (dataNext p s).tStart = s.tStart := by cases p <;> rfl
@[simp] theorem payloadOf_dataNext (p : Proto) (s : State) : payloadOf (dataNext p s) = payloadOf s := by
  cases p <;> rfl

/-- At a payload byte the buffer has room (R59, R71). -/
theorem room_of_payloadSt (p : Proto) (hinv : Inv u) (hst : u.st = payloadSt p) : u.bcnt.toNat < u.par.payloadCap := by
  obtain ⟨-, -, hf⟩ := hinv
  cases p <;> simp only [payloadSt] at hst <;> simp only [FramingInv, hst] at hf
  · obtain ⟨⟨-, -, -, -, -, -, hcap⟩, hcnt, -⟩ := hf
    omega
  · obtain ⟨⟨-, -, hcap⟩, -, hcnt, -⟩ := hf
    omega

/-- The opcode and the payload bytes `pay` of a frame with `n` payload bytes have been read. -/
def HasRead (p : Proto) (id opc : Byte) (n : Nat) (pay : List Byte) (u : State) : Prop :=
  u.st = (if u.bcnt.toNat + overhead p = u.len.toNat then trailerSt p else payloadSt p) ∧ u.id = id ∧ u.opc = opc ∧
    payloadOf u = pay ∧ u.len.toNat = n + overhead p

theorem HasRead.bcnt_toNat {p : Proto} {n : Nat} {pay : List Byte} (h : HasRead p id opc n pay u) :
    u.bcnt.toNat = pay.length := by
  obtain ⟨-, -, -, hpay, -⟩ := h
  rw [← hpay, payloadOf_length]

theorem HasRead.st_of_lt {p : Proto} {n : Nat} {pay : List Byte} (h : HasRead p id opc n pay u) (hlt : pay.length < n) :
    u.st = payloadSt p := by
  have hcnt := h.bcnt_toNat
  obtain ⟨hst, -, -, -, hlen⟩ := h
  rw [hst, if_neg (by omega)]

theorem HasRead.st_of_complete {p : Proto} {pay : List Byte} (h : HasRead p id opc pay.length pay u) :
    u.st = trailerSt p := by
  have hcnt := h.bcnt_toNat
  obtain ⟨hst, -, -, -, hlen⟩ := h
  rw [hst, if_pos (by omega)]

/-- A payload byte is read (R62, R73). -/
theorem InFrame.payload_byte {p : Proto} {n : Nat} {pay : List Byte} (h : InFrame s first last rest (x :: bytes) u)
    (hr : HasRead p id opc n pay u) (hlt : pay.length < n) :
    ∃ t, step u = .next t ∧ InFrame s first last rest bytes t ∧ HasRead p id opc n (pay ++ [x]) t := by
  have hst := hr.st_of_lt hlt
  refine h.advance (by cases p <;> simp [hst, payloadSt]) fun b more hv => ?_
  have hroom := room_of_payloadSt p h.inv hst
  have hnext : handleByte (u.present b more) = .next (dataNext p { u.present b more with
      buf := u.buf.write u.bcnt.toNat b.v, bcnt := u.bcnt + 1 }) := by
    rw [handleByte_payload p (u.present b more) hst, bufAppend_of_room (u.present b more) _ hroom, mapNext_next]
    rfl
  refine ⟨_, hnext, dataNext_tStart .., ?_⟩
  have hcnt := hr.bcnt_toNat
  obtain ⟨-, hid, hopc, hpay, hlen⟩ := hr
  have hlt16 := u.len.isLt
  have happend := payloadOf_append (u.present b more) b.v h.inv.2.1.1 (by simp only [State.present_bcnt]; omega)
  refine ⟨by simp [dataNext_st], by simpa using hid, by simpa using hopc, ?_, by simpa using hlen⟩
  rw [← hv, ← hpay]
  exact (payloadOf_dataNext p _).trans happend

/-- All payload bytes are read, one after the other. -/
theorem InFrame.completes_of_payload {p : Proto} (more pay trailer : List Byte)
    (h : InFrame s first last rest (more ++ trailer) u) (hr : HasRead p id opc (pay ++ more).length pay u)
    (hend : ∀ t, InFrame s first last rest trailer t → HasRead p id opc (pay ++ more).length (pay ++ more) t →
      Completes s id i first last rest trailer.length t) :
    Completes s id i first last rest (more ++ trailer).length u := by
  induction more generalizing pay u with
  | nil => exact hend u h (by simpa using hr)
  | cons x more ih =>
    obtain ⟨t, hstep, ht, hrt⟩ := h.payload_byte hr (by simp)
    exact .of_step hstep (ih (pay ++ [x]) ht (by simpa using hrt) (by simpa using hend))

/-! ### The trailer -/

/-- The last trailer byte ends the frame with its record, where it makes the check right. -/
theorem InFrame.completes_of_trailer (p : Proto) (pay : List Byte) (h : InFrame s first last rest [x] u)
    (hhandler : ∀ b more, handleByte (u.present b more) = trailerByte p (u.present b more))
    (hfits : u.bcnt.toNat ≤ u.par.payloadCap) (hpay : payloadOf u = pay)
    (hchk : ∀ b more, b.v = x → chkOk p (u.present b more) = true) :
    Completes s u.id (decodeOp p u.opc pay) first last rest 1 u := by
  obtain ⟨b, todo, hv, hin, htime, htodo, -, hlast⟩ := h.next_event
  obtain rfl : todo = [] := by simpa using htodo
  obtain rfl : b = last := by simpa using hlast
  obtain ⟨hproto, hopc, hload, -⟩ := decodeOp_sound p u.opc pay
  generalize hi : decodeOp p u.opc pay = i at hproto hopc hload ⊢
  obtain ⟨res, -, v, -, hexec, ⟨hreset, hfixed, -, -, -, hinput, -⟩, hout, -⟩ := exec_ends i (u.present b rest)
  have hw : handleByte (u.present b rest) = .next v := by
    rw [hhandler, trailerByte_of_fits p (u.present b rest) hfits, ← hexec, ← hi, ← hpay]
    rfl
  refine ⟨v.setLastByte b, u.present b rest, v, _,
    (runsTo_succ_iff ..).2 ⟨_, step_of_handleByte u v b _ h.ready hin (.inr htime) hw, runsTo_zero _⟩,
    hinput, hreset, hout, rfl, rfl, rfl, rfl, rfl, ?_, h.tStart, rfl, hexec, h.fixed, h.lastOpc, h.lastRead, ?_, rfl⟩
  · rw [hproto]
    exact hchk b rest hv
  · exact fun j => by rw [State.present_bulk, h.bulk]

/-- The trailer of Protocol 1: the invariant's running sum is that of the frame's bytes (R60, R63). -/
theorem InFrame.completes_of_p1_trailer {pay : List Byte}
    (h : InFrame s first last rest [checksum (p1Body id opc pay)] u) (hr : HasRead .p1 id opc pay.length pay u) :
    Completes s id (decodeOp .p1 opc pay) first last rest 1 u := by
  have hst : u.st = .p1Chk := hr.st_of_complete
  obtain ⟨-, rfl, rfl, rfl, -⟩ := hr
  have hf := h.inv.2.2
  simp only [FramingInv, hst] at hf
  obtain ⟨⟨-, -, -, -, -, -, hcap⟩, hcnt, hsum⟩ := hf
  have hbody : p1Summed u = p1Body u.id u.opc (payloadOf u) := by
    have hlen : BitVec.ofNat 8 ((payloadOf u).length + 2) = loByte u.len := by
      rw [payloadOf_length, hcnt, BitVec.ofNat_toNat, loByte]
    rw [p1Summed, p1Body, hlen]
  refine h.completes_of_trailer .p1 _ (fun b more => by simp [handleByte, hst]) (by omega) rfl fun b more hv => ?_
  simp [chkOk, chkExp, chkAct, hv, hsum, hbody, checksum]

/-- The low trailer byte of Protocol 2 (R74). -/
theorem InFrame.p2_low_crc (h : InFrame s first last rest (x :: bytes) u) (hst : u.st = .p2Crc1) :
    ∃ t, step u = .next t ∧ InFrame s first last rest bytes t ∧ t.st = .p2Crc2 ∧ t.id = u.id ∧ t.opc = u.opc ∧
      payloadOf t = payloadOf u ∧ t.rxLo = x :=
  h.advance (by simp [hst]) fun b more hv =>
    ⟨p2Crc1Byte (u.present b more), by simp [handleByte, hst], rfl, rfl, rfl, rfl, rfl, hv⟩

/-- The trailer of Protocol 2: the invariant's running CRC is that of the frame's bytes (R64, R75). -/
theorem InFrame.completes_of_p2_trailer {pay : List Byte}
    (h : InFrame s first last rest [loByte (crcOf (p2Body id opc pay)), hiByte (crcOf (p2Body id opc pay))] u)
    (hr : HasRead .p2 id opc pay.length pay u) : Completes s id (decodeOp .p2 opc pay) first last rest 2 u := by
  obtain ⟨t, hstep, ht, hst, htid, htopc, htpay, hrx⟩ := h.p2_low_crc hr.st_of_complete
  obtain ⟨-, hid, hopc, hpay, -⟩ := hr
  obtain rfl : t.id = id := htid.trans hid
  obtain rfl : t.opc = opc := htopc.trans hopc
  obtain rfl : payloadOf t = pay := htpay.trans hpay
  have hf := ht.inv.2.2
  simp only [FramingInv, hst] at hf
  obtain ⟨⟨-, -, hcap⟩, hcnt, hcrc⟩ := hf
  have hbody : p2Crced t = p2Body t.id t.opc (payloadOf t) := by
    have hlen : BitVec.ofNat 16 ((payloadOf t).length + 3) = t.len := by simp [hcnt]
    rw [p2Crced, p2Body, hlen]
  refine .of_step hstep
    (ht.completes_of_trailer .p2 _ (fun b more => by simp [handleByte, hst]) (by omega) rfl fun b more hv => ?_)
  simp [chkOk, chkExp, chkAct, hv, hcrc, hbody, hrx]

/-! ### Whole frames -/

/-- The opcode byte of Protocol 1 begins the payload (R61). -/
theorem InFrame.p1_opcode (h : InFrame s first last rest (x :: bytes) u) (hst : u.st = .p1Inst) {n : Nat}
    (hlen : u.len.toNat = n + 2) :
    ∃ t, step u = .next t ∧ InFrame s first last rest bytes t ∧ HasRead .p1 u.id x n [] t := by
  have hf := h.inv.2.2
  simp only [FramingInv, hst] at hf
  obtain ⟨-, hbcnt, -⟩ := hf
  refine h.advance (by simp [hst]) fun b more hv =>
    ⟨p1InstByte (u.present b more), by simp [handleByte, hst], rfl, ?_, rfl, hv, payloadOf_of_bcnt_zero _ hbcnt, hlen⟩
  simp [p1InstByte, hbcnt, overhead, trailerSt, payloadSt, eq_comm]

/-- The opcode byte of Protocol 2 begins the payload (R72). -/
theorem InFrame.p2_opcode (h : InFrame s first last rest (x :: bytes) u) (hst : u.st = .p2Inst) {n : Nat}
    (hlen : u.len.toNat = n + 3) :
    ∃ t, step u = .next t ∧ InFrame s first last rest bytes t ∧ HasRead .p2 u.id x n [] t := by
  have hf := h.inv.2.2
  simp only [FramingInv, hst] at hf
  obtain ⟨-, -, hbcnt, -⟩ := hf
  refine h.advance (by simp [hst]) fun b more hv =>
    ⟨p2InstByte (u.present b more), by simp [handleByte, hst], rfl, ?_, rfl, hv, payloadOf_of_bcnt_zero _ hbcnt, hlen⟩
  simp [p2InstByte, hbcnt, overhead, trailerSt, payloadSt, eq_comm]

/-- The first byte of a frame, in IDLE or late inside another frame (R56, R78). -/
theorem inFrame_of_first (b : ByteEvent) (todo : List ByteEvent) (hinv : Inv s) (herr : s.cfgErr = false)
    (hst : s.st = .idle ∨ Late s b) (hin : s.input = b :: (todo ++ rest)) (hv : b.v = 0xFF)
    (hbytes : todo.map (fun b => b.v) = bytes) (hgaps : NoGaps s.par (b :: todo))
    (hlast : (b :: todo).getLast? = some last) :
    ∃ t, step s = .next t ∧ InFrame s b last rest bytes t ∧ t.st = .pre2 := by
  have hmonitor : ∃ w, monitor (s.present b (todo ++ rest)) = w ∧ w.st = .idle ∧ w.cur = b ∧ w.input = todo ++ rest ∧
      FixedKept s w ∧ LastOpcKept s w ∧ LastReadKept s w ∧ w.bulk = s.bulk := by
    by_cases hidle : s.st = .idle
    · exact ⟨_, monitor_of_idle s b _ hidle, hidle, rfl, rfl, ⟨rfl, rfl, rfl⟩, ⟨rfl, rfl⟩, ⟨rfl, rfl, rfl⟩, rfl⟩
    · exact ⟨_, monitor_of_late s b _ hidle (hst.resolve_left hidle), rfl, rfl, rfl, ⟨rfl, rfl, rfl⟩, ⟨rfl, rfl⟩,
        ⟨rfl, rfl, rfl⟩, rfl⟩
  obtain ⟨w, hw, hidle, hcur, hwin, hfixed, hopc, hread, hbulk⟩ := hmonitor
  have hstep : step s = .next (State.setLastByte { w with tStart := w.cur.ts, st := .pre2 } b) := by
    have hbyte : handleByte w = .next (idleByte w) := by simp [handleByte, hidle]
    rw [step_of_event s b _ herr hin, hw, hbyte, idleByte_preamble w (by rw [hcur, hv]), mapNext_next]
  refine ⟨_, hstep, ?_, rfl⟩
  exact {
    inv := everyStepKeepsTheInvariant s _ hinv hstep
    ready := hfixed.2.2.trans herr
    tStart := by simp [hcur]
    fixed := hfixed
    lastOpc := hopc
    lastRead := hread
    bulk := hbulk
    tLastS := by simp [hcur]
    tLastE := by simp [hcur]
    events := ⟨todo, hwin, hbytes, by simpa [hcur, hfixed.1] using hgaps, by simpa [hcur] using hlast⟩ }

/-- The bytes of a Protocol 1 frame after its preamble are decoded (R44). -/
theorem InFrame.completes_p1 (pay : List Byte)
    (h : InFrame s first last rest (id :: BitVec.ofNat 8 (pay.length + 2) :: opc ::
      (pay ++ [checksum (p1Body id opc pay)])) u)
    (hst : u.st = .rid) (hid : id ≠ 0xFF) (hmax : pay.length ≤ maxPayload .p1) (hcap : pay.length ≤ s.par.payloadCap) :
    Completes s id (decodeOp .p1 opc pay) first last rest (pay.length + 4) u := by
  have hlen := p1_length_toNat _ hmax
  obtain ⟨u1, hstep1, h1, hst1, hhid1⟩ := h.id_byte hst hid
  obtain ⟨u2, hstep2, h2, hst2, hid2, hlen2⟩ := h1.p1_length hst1
    (fun hp2 => p1_length_ne_zero _ hmax hp2.2) (by omega) (by rw [h1.fixed.1]; omega)
  obtain ⟨u3, hstep3, h3, hr⟩ := h2.p1_opcode (n := pay.length) hst2 (by rw [hlen2, zext16_toNat, hlen])
  rw [hid2, hhid1] at hr
  have hpayload := h3.completes_of_payload pay [] _ hr fun t ht hrt => ht.completes_of_p1_trailer hrt
  rw [List.length_append] at hpayload
  exact .of_step hstep1 (.of_step hstep2 (.of_step hstep3 hpayload))

/-- The bytes of a Protocol 2 frame after its preamble are decoded (R45). -/
theorem InFrame.completes_p2 (pay : List Byte)
    (h : InFrame s first last rest (0xFD :: 0x00 :: id :: loByte (BitVec.ofNat 16 (pay.length + 3)) ::
      hiByte (BitVec.ofNat 16 (pay.length + 3)) :: opc ::
      (pay ++ [loByte (crcOf (p2Body id opc pay)), hiByte (crcOf (p2Body id opc pay))])) u)
    (hst : u.st = .rid) (hmax : pay.length ≤ maxPayload .p2) (hcap : pay.length ≤ s.par.payloadCap) :
    Completes s id (decodeOp .p2 opc pay) first last rest (pay.length + 8) u := by
  have hlen := p2_length_toNat _ hmax
  obtain ⟨u1, hstep1, h1, hst1, hhid1⟩ := h.id_byte hst (by decide)
  obtain ⟨u2, hstep2, h2, hst2⟩ := h1.p2_trigger hst1 hhid1
  obtain ⟨u3, hstep3, h3, hst3, hid3⟩ := h2.p2_id hst2
  obtain ⟨u4, hstep4, h4, hst4, hid4, hlen4⟩ := h3.p2_low_length hst3
  have hle : le16 (loByte u4.len) (hiByte (BitVec.ofNat 16 (pay.length + 3))) = BitVec.ofNat 16 (pay.length + 3) := by
    rw [hlen4, loByte_zext16, le16_loByte_hiByte]
  obtain ⟨u5, hstep5, h5, hst5, hid5, hlen5⟩ := h4.p2_high_length hst4 (by rw [hle]; omega)
    (by rw [hle, h4.fixed.1]; omega)
  obtain ⟨u6, hstep6, h6, hr⟩ := h5.p2_opcode (n := pay.length) hst5 (by rw [hlen5, hle, hlen])
  rw [hid5, hid4, hid3] at hr
  have hpayload := h6.completes_of_payload pay [] _ hr fun t ht hrt => ht.completes_of_p2_trailer hrt
  rw [List.length_append] at hpayload
  exact .of_step hstep1 (.of_step hstep2 (.of_step hstep3 (.of_step hstep4 (.of_step hstep5
    (.of_step hstep6 hpayload)))))

end

/-- The wire bytes of a frame begin with the preamble, and what comes after it is decoded from RID. -/
theorem completes_encodeRaw (s : State) (p : Proto) (id opc : Byte) (pay : List Byte) (events rest : List ByteEvent)
    (hinv : Inv s) (herr : s.cfgErr = false) (hst : s.st = .idle ∨ ∃ b ∈ events.head?, Late s b)
    (hid : idOk p id = true) (hmax : pay.length ≤ maxPayload p) (hcap : pay.length ≤ s.par.payloadCap)
    (hbytes : events.map (fun b => b.v) = encodeRaw p id opc pay) (hgaps : NoGaps s.par events)
    (hin : s.input = events ++ rest) :
    ∃ first last, events.head? = some first ∧ events.getLast? = some last ∧
      Completes s id (decodeOp p opc pay) first last rest events.length s := by
  obtain ⟨bytes, hwire⟩ : ∃ bytes, encodeRaw p id opc pay = 0xFF :: 0xFF :: bytes := by cases p <;> exact ⟨_, rfl⟩
  have hlength : events.length = bytes.length + 2 := by simpa [hwire] using congrArg List.length hbytes
  obtain ⟨b, todo, rfl, hv, htodo⟩ := List.map_eq_cons_iff.1 (hbytes.trans hwire)
  have hlast := List.getLast?_eq_some_getLast (l := b :: todo) (by simp)
  obtain ⟨u1, hstep1, h1, hst1⟩ := inFrame_of_first b todo hinv herr (by simpa using hst) hin hv htodo hgaps hlast
  obtain ⟨u2, hstep2, h2, hst2⟩ := h1.second_preamble hst1
  refine ⟨b, _, rfl, hlast, ?_⟩
  rw [hlength]
  refine .of_step hstep1 (.of_step hstep2 ?_)
  cases p
  · obtain rfl : bytes = _ := (List.cons.inj (List.cons.inj (hwire.symm.trans (encodeRaw_p1 id opc pay))).2).2
    simpa using h2.completes_p1 pay hst2 (by simpa [idOk] using hid) hmax hcap
  · obtain rfl : bytes = _ := (List.cons.inj (List.cons.inj (hwire.symm.trans (encodeRaw_p2 id opc pay))).2).2
    simpa using h2.completes_p2 pay hst2 hmax hcap

/-- Settles O56: the opcode map gives the instruction back from the opcode and the payload read (`decodeOp_of_wf`), and
the byte machine reads those off the wire bytes. -/
theorem wholeFramesAreDecoded : Obligations.WholeFramesAreDecoded := by
  intro s id i events rest hinv herr hst hframe hcap hbytes hgaps hin
  obtain ⟨hid, hwf⟩ : idOk i.proto id = true ∧ i.wf = true := by simpa [frameWf] using hframe
  obtain ⟨hmax, -⟩ : i.payload.length ≤ maxPayload i.proto ∧ i.opcodeOk = true := by simpa [Instr.wf] using hwf
  obtain ⟨first, last, hhead, hlast, hdone⟩ :=
    completes_encodeRaw s i.proto id i.opcode i.payload events rest hinv herr hst hid hmax hcap hbytes hgaps hin
  rw [decodeOp_of_wf i hwf] at hdone
  simp only [hhead, hlast, Option.map_some, Option.some.injEq]
  exact hdone

end Sys2Proof.Machine

/-! The byte step state by state (40_frame_sync.md): what it does in each of the four synchronizer states, and at a last
trailer byte, where it runs the instruction that the frame decodes to. -/

namespace Sys2Proof.Machine

/-! ### A byte as a number -/

/-- A byte widened to 16 bits, as the 16-bit field of the same number (00_scope.md R13). -/
theorem zext16_eq_ofNat (b : Byte) : zext16 b = BitVec.ofNat 16 b.toNat :=
  (BitVec.ofNat_toNat 16 b).symm

/-- The running sum of R60 after one more byte, as a number modulo 256. -/
theorem byte_add_eq_ofNat (x y : Byte) : x + y = BitVec.ofNat 8 ((x.toNat + y.toNat) % 256) :=
  BitVec.eq_of_toNat_eq (by simp)

/-! ### The bytes that the synchronizer ignores or rejects -/

theorem idleByte_stray (s : State) (h : s.cur.v ≠ 0xFF) : idleByte s = s := if_neg h

theorem pre2Byte_discards (s : State) (h : s.cur.v ≠ 0xFF) : pre2Byte s = s.frameReset := if_neg h

/-- Both abort causes of R59 reset the framing registers, so nothing stays of what the handler wrote first. -/
theorem rlen1Byte_discards (s : State) (h : ¬ (s.hid = 0xFD ∧ s.cur.v = 0x00))
    (hlen : s.cur.v.toNat < 2 ∨ s.par.payloadCap < s.cur.v.toNat - 2) : rlen1Byte s = s.frameReset := by
  rw [rlen1Byte, if_neg h]
  by_cases hshort : s.cur.v.toNat < 2
  · rw [if_pos hshort]
    rfl
  · rw [if_neg hshort, if_pos (hlen.resolve_left hshort)]
    rfl

/-! ### The step around a handler -/

/-- `discarded` is the frame reset, and taking and recording the event around it writes no framing register. -/
theorem discarded_afterByte (s : State) (b : ByteEvent) (rest : List ByteEvent) :
    discarded (afterByte s b rest) = (s.present b rest).frameReset.setLastByte b := rfl

/-- The step of a late byte inside a frame: the framing registers are reset and IDLE handles the byte (R77, R78). -/
theorem step_of_late (s : State) (b : ByteEvent) (rest : List ByteEvent) (hb : Presents s b rest)
    (hst : s.st ≠ .idle) (hlate : Late s b) :
    step s = .next ((idleByte (s.present b rest).frameReset).setLastByte b) := by
  obtain ⟨herr, hi⟩ := hb
  rw [step_of_event s b rest herr hi, monitor_of_late s b rest hst hlate]
  rfl

/-! ### The synchronizer states -/

/-- Settles O4: in IDLE the monitor leaves the state alone, whether or not the byte is late. -/
theorem idleByteStep : Obligations.IdleByteStep := by
  intro s b rest ⟨herr, hi⟩ hst
  have hbyte : handleByte (s.present b rest) = .next (idleByte (s.present b rest)) := by simp [handleByte, hst]
  rw [step_of_handleByte s _ b rest herr hi (.inl hst) hbyte]
  split
  next hff => rw [idleByte_preamble _ hff]; rfl
  next hstray => rw [idleByte_stray _ hstray]; rfl

/-- Settles O5: an in-time byte is handled in PRE2, a late one in IDLE after the frame reset. -/
theorem preambleByteStep : Obligations.PreambleByteStep := by
  intro s b rest hb hst
  constructor
  · intro htime
    obtain ⟨herr, hi⟩ := hb
    have hbyte : handleByte (s.present b rest) = .next (pre2Byte (s.present b rest)) := by simp [handleByte, hst]
    rw [step_of_handleByte s _ b rest herr hi (.inr htime) hbyte]
    split
    next hff => rw [pre2Byte_preamble _ hff]; rfl
    next hother => rw [pre2Byte_discards _ hother, discarded_afterByte]
  · intro hlate hff
    rw [step_of_late s b rest hb (by simp [hst]) hlate, idleByte_preamble _ hff]
    rfl

/-- Settles O6. -/
theorem idByteStep : Obligations.IdByteStep := by
  intro s b rest ⟨herr, hi⟩ hst htime
  have hbyte : handleByte (s.present b rest) = .next (ridByte (s.present b rest)) := by simp [handleByte, hst]
  rw [step_of_handleByte s _ b rest herr hi (.inr htime) hbyte]
  split
  next hff => rw [ridByte_preamble _ hff]; rfl
  next hid => rw [ridByte_id _ hid]; rfl

/-- Settles O8, along the branches of R59: Protocol 2, a rejected length, an accepted length. -/
theorem firstLengthByteStep : Obligations.FirstLengthByteStep := by
  intro s b rest ⟨herr, hi⟩ hst htime
  have hbyte : handleByte (s.present b rest) = .next (rlen1Byte (s.present b rest)) := by simp [handleByte, hst]
  rw [step_of_handleByte s _ b rest herr hi (.inr htime) hbyte]
  split_ifs with hp2 hlen
  · rw [rlen1Byte_p2 _ hp2]
    rfl
  · rw [rlen1Byte_discards _ hp2 hlen, discarded_afterByte]
  · obtain ⟨hmin, hcap⟩ : 2 ≤ b.v.toNat ∧ b.v.toNat - 2 ≤ s.par.payloadCap := by omega
    rw [rlen1Byte_p1 _ hp2 hmin hcap, ← zext16_eq_ofNat, ← byte_add_eq_ofNat]
    rfl

/-! ### The last trailer byte -/

/-- Settles O16: no instruction stops (`exec_next`), so the step answers what the decoded instruction answers, with the
event recorded. -/
theorem trailerStepRunsTheDecodedInstruction : Obligations.TrailerStepRunsTheDecodedInstruction := by
  intro s b rest p i ⟨herr, hi⟩ hst htime hfits hdec
  have htrailer : handleByte (s.present b rest) = trailerByte p (s.present b rest) := by
    cases p <;> simp [handleByte, hst]
  have hrun : handleByte (s.present b rest) = exec i (s.present b rest) := by
    rw [htrailer, trailerByte_of_fits p (s.present b rest) hfits, ← hdec]
    rfl
  obtain ⟨t, ht⟩ := exec_next i (s.present b rest)
  exact ⟨t, ht, step_of_handleByte s t b rest herr hi (.inr htime) (hrun.trans ht)⟩

end Sys2Proof.Machine

/-! The Protocol 1 decoder (41_p1_decoder.md): the checksum in wide arithmetic, and the byte step at the opcode and at a
payload byte. -/

namespace Sys2Proof.Machine

/-! ### The checksum -/

/-- Settles O40: the running sum is the wide sum modulo 256 (`sumBytes_toNat`), and the complement of a byte is its
distance from 255. -/
theorem checksumIsTheComplementedSum : Obligations.ChecksumIsTheComplementedSum := by
  intro l
  have hsum : (sumBytes 0 l).toNat = (l.map fun b => b.toNat).sum % 256 := by simpa using sumBytes_toNat 0 l
  calc (checksum l).toNat = 255 - (sumBytes 0 l).toNat := BitVec.toNat_not
    _ = 255 - (l.map fun b => b.toNat).sum % 256 := by rw [hsum]

/-! ### The opcode byte -/

/-- A 16-bit field tested as a number is the field tested as a word. -/
theorem half_toNat_eq_two_iff (h : Half) : h.toNat = 2 ↔ h = 2 := BitVec.toNat_inj (y := (2 : Half))

/-- Settles O9: the handler's one branch is the choice of the next framing state, so no invariant is needed. -/
theorem protocolOneOpcodeByteStep : Obligations.ProtocolOneOpcodeByteStep := by
  intro s b rest ⟨herr, hi⟩ hst htime
  have hbyte : handleByte (s.present b rest) = .next (p1InstByte (s.present b rest)) := by simp [handleByte, hst]
  rw [step_of_handleByte s _ b rest herr hi (.inr htime) hbyte, ← byte_add_eq_ofNat, p1InstByte, State.present_len]
  simp only [half_toNat_eq_two_iff]
  rfl

/-! ### A payload byte -/

/-- The payload count after one more byte, as a number. -/
theorem half_succ_eq_ofNat (n : Half) : n + 1 = BitVec.ofNat 16 (n.toNat + 1) := BitVec.eq_of_toNat_eq (by simp)

/-- The step of an in-time payload byte, for both protocols: the buffer has room, so the byte is appended, and the
protocol's own accumulator and count follow (R62, R73). -/
theorem step_of_payload_byte (p : Proto) (s : State) (b : ByteEvent) (rest : List ByteEvent) (hinv : Inv s)
    (hb : Presents s b rest) (hst : s.st = payloadSt p) (htime : ¬ Late s b) :
    step s = .next ((dataNext p { s.present b rest with
      buf := s.buf.write s.bcnt.toNat b.v, bcnt := s.bcnt + 1 }).setLastByte b) := by
  obtain ⟨herr, hi⟩ := hb
  refine step_of_handleByte s _ b rest herr hi (.inr htime) ?_
  rw [handleByte_payload p (s.present b rest) hst,
    bufAppend_of_room (s.present b rest) _ (room_of_payloadSt p hinv hst), mapNext_next]
  rfl

/-- Settles O10: the invariant gives the buffer room and a canonical form, and keeps the count below the length, so that
the new count does not wrap around and the handler's test of it is the rule's. -/
theorem protocolOnePayloadByteStep : Obligations.ProtocolOnePayloadByteStep := by
  intro s b rest hinv hb hst htime
  have ⟨_, ⟨hwf, _⟩, hf⟩ := hinv
  simp only [FramingInv, hst] at hf
  obtain ⟨-, hcnt, -⟩ := hf
  refine ⟨s.buf.write s.bcnt.toNat b.v, ?_, fun a => Memory.read_write s.buf s.bcnt.toNat a b.v hwf⟩
  have hlast : (s.bcnt + 1).toNat + 2 = s.len.toNat ↔ s.bcnt.toNat + 1 = s.len.toNat - 2 := by
    rw [half_succ_toNat s.bcnt (by have := s.len.isLt; omega)]
    omega
  rw [step_of_payload_byte .p1 s b rest hinv hb hst htime, ← half_succ_eq_ofNat, ← byte_add_eq_ofNat]
  simp only [dataNext, p1DataNext, State.present_len, hlast]
  rfl

end Sys2Proof.Machine

/-! The Protocol 2 decoder (42_p2_decoder.md): the CRC table as polynomial division, the check values, and the byte
step in every state before the last trailer byte. -/

namespace Sys2Proof.Machine

/-! ### The CRC as polynomial division -/

/-- A shift with the polynomial's addition apart, so that the branch is a summand. -/
theorem crcShift_eq_xor (c : Half) : crcShift c = c <<< 1 ^^^ (if c.getLsbD 15 then 0x8005#16 else 0#16) := by
  unfold crcShift
  split <;> simp

/-- One shift is linear: the polynomial is added for a sum when it is added for just one of the summands. -/
theorem crcShift_xor (x y : Half) : crcShift (x ^^^ y) = crcShift x ^^^ crcShift y := by
  have hpoly : (if (x ^^^ y).getLsbD 15 then 0x8005#16 else 0#16) =
      (if x.getLsbD 15 then 0x8005#16 else 0#16) ^^^ (if y.getLsbD 15 then 0x8005#16 else 0#16) := by
    rw [BitVec.getLsbD_xor]
    cases x.getLsbD 15 <;> cases y.getLsbD 15 <;> rfl
  rw [crcShift_eq_xor, crcShift_eq_xor x, crcShift_eq_xor y, hpoly, BitVec.shiftLeft_xor_distrib]
  ac_rfl

theorem crcShift_iterate_xor (n : Nat) (x y : Half) : crcShift^[n] (x ^^^ y) = crcShift^[n] x ^^^ crcShift^[n] y := by
  induction n generalizing x y with
  | zero => rfl
  | succ n ih => simp only [Function.iterate_succ_apply, crcShift_xor, ih]

/-- As long as no set bit leaves the register, the polynomial is never added. -/
theorem crcShift_iterate_of_fits (n : Nat) (c : Half) (h : c.toNat * 2 ^ n < 2 ^ 16) : crcShift^[n] c = c <<< n := by
  induction n with
  | zero => simp
  | succ n ih =>
    have hroom : c.toNat * 2 ^ n < 2 ^ 15 := by rw [pow_succ, ← mul_assoc] at h; omega
    have htop : (c <<< n).getLsbD 15 = false := by
      refine Nat.testBit_lt_two_pow ?_
      rw [BitVec.toNat_shiftLeft, Nat.shiftLeft_eq]
      omega
    rw [Function.iterate_succ_apply', ih (by omega), crcShift, htop, BitVec.shiftLeft_add]
    rfl

/-- Each of the 256 printed entries of R66 is eight shifts of its index in the high byte. -/
theorem crcEntry_eq_shifts : ∀ i : Byte, crcEntry i = crcShift^[8] (zext16 i <<< 8) := by decide

/-- Adding a byte to the CRC's high byte leaves its low byte apart. -/
theorem xor_highByte_eq (crc : Half) (b : Byte) :
    crc ^^^ (zext16 b <<< 8) = zext16 (loByte crc) ^^^ (zext16 (hiByte crc ^^^ b) <<< 8) := by
  ext i hi
  by_cases hlow : i < 8
  · simp [zext16, loByte, hlow, BitVec.getLsbD_eq_getElem hi]
  · simp [zext16, loByte, hiByte, hlow, show 8 + (i - 8) = i by omega, show i - 8 < 8 by omega,
      BitVec.getLsbD_eq_getElem hi]

/-- The CRC's high byte leaves with eight shifts. -/
theorem shiftLeft_eight_eq_loByte (crc : Half) : crc <<< 8 = zext16 (loByte crc) <<< 8 := by
  ext i hi
  simp [zext16, loByte, show i - 8 < 8 by omega, BitVec.getLsbD_eq_getElem (show i - 8 < 16 by omega)]

/-- Settles O38, by the linearity of the shift: the low byte of the CRC moves up without the polynomial, and the high
byte with the byte added is the index of the table. -/
theorem crcTableIsThePolynomial : Obligations.CrcTableIsThePolynomial := by
  intro crc b
  have hlow : crcShift^[8] (zext16 (loByte crc)) = crc <<< 8 := by
    rw [shiftLeft_eight_eq_loByte]
    exact crcShift_iterate_of_fits 8 _ (by have := (loByte crc).isLt; rw [zext16_toNat]; omega)
  calc crcUpd crc b = crc <<< 8 ^^^ crcEntry (hiByte crc ^^^ b) := rfl
    _ = crcShift^[8] (zext16 (loByte crc)) ^^^ crcShift^[8] (zext16 (hiByte crc ^^^ b) <<< 8) := by
        rw [hlow, crcEntry_eq_shifts]
    _ = crcShift^[8] (zext16 (loByte crc) ^^^ (zext16 (hiByte crc ^^^ b) <<< 8)) := (crcShift_iterate_xor 8 _ _).symm
    _ = crcBitwise crc b := by rw [← xor_highByte_eq, crcBitwise, zext16]

/-- Settles O39, by the table's values (R67, R68; log 7). -/
theorem crcCheckValues : Obligations.CrcCheckValues := by
  have hseed : crcUpd (crcUpd 0x0000 0xFF) 0xFF = 0x800D := by decide
  have hdigits : crcOf [0x31, 0x32, 0x33, 0x34, 0x35, 0x36, 0x37, 0x38, 0x39] = 0xFEE8 := by decide
  have hping : crcOf [0xFF, 0xFF, 0xFD, 0x00, 0x01, 0x03, 0x00, 0x01] = 0x4E19 := by
    rw [crcOf_preamble]
    decide
  exact ⟨hseed, rfl, hdigits, hping⟩

/-! ### The byte step before the payload -/

/-- Settles O11: R69's handler has no branch, so its result with the event around it is the stated state. -/
theorem protocolTwoIdByteStep : Obligations.ProtocolTwoIdByteStep := by
  intro s b rest ⟨herr, hi⟩ hst htime
  have hbyte : handleByte (s.present b rest) = .next (p2IdByte (s.present b rest)) := by simp [handleByte, hst]
  exact step_of_handleByte s _ b rest herr hi (.inr htime) hbyte

/-- The two length bytes as a number: the low one is what the register holds in its low half (R71). -/
theorem le16_loByte_toNat (h : Half) (b : Byte) : (le16 (loByte h) b).toNat = h.toNat % 256 + 256 * b.toNat := by
  rw [le16_toNat, loByte_toNat]

/-- Both abort causes of R71 reset the framing registers, so nothing stays of what the handler wrote first. -/
theorem p2Len2Byte_discards (s : State)
    (h : (le16 (loByte s.len) s.cur.v).toNat < 3 ∨ s.par.payloadCap < (le16 (loByte s.len) s.cur.v).toNat - 3) :
    p2Len2Byte s = s.frameReset := by
  rw [p2Len2Byte]
  by_cases hshort : (le16 (loByte s.len) s.cur.v).toNat < 3
  · rw [if_pos hshort]
    rfl
  · rw [if_neg hshort, if_pos (h.resolve_left hshort)]
    rfl

/-- Settles O12: the rule's length is the number of the two bytes, and R71's check either discards the frame or accepts
the length. -/
theorem protocolTwoLengthByteSteps : Obligations.ProtocolTwoLengthByteSteps := by
  intro s b rest ⟨herr, hi⟩ htime
  constructor
  · intro hst
    have hbyte : handleByte (s.present b rest) = .next (p2Len1Byte (s.present b rest)) := by simp [handleByte, hst]
    rw [step_of_handleByte s _ b rest herr hi (.inr htime) hbyte, ← zext16_eq_ofNat]
    rfl
  · intro hst
    have hbyte : handleByte (s.present b rest) = .next (p2Len2Byte (s.present b rest)) := by simp [handleByte, hst]
    rw [step_of_handleByte s _ b rest herr hi (.inr htime) hbyte, ← le16_loByte_toNat]
    split
    next hbad => rw [p2Len2Byte_discards _ hbad, discarded_afterByte]
    next hgood =>
      obtain ⟨hmin, hcap⟩ := not_or.1 hgood
      rw [p2Len2Byte_accepted _ (not_lt.1 hmin) (not_lt.1 hcap), BitVec.ofNat_toNat, BitVec.setWidth_eq]
      rfl

/-- Settles O13: the handler's one branch is the choice of the next framing state. -/
theorem protocolTwoOpcodeByteStep : Obligations.ProtocolTwoOpcodeByteStep := by
  intro s b rest ⟨herr, hi⟩ hst htime
  have hbyte : handleByte (s.present b rest) = .next (p2InstByte (s.present b rest)) := by simp [handleByte, hst]
  have hthree : s.len.toNat = 3 ↔ s.len = 3 := BitVec.toNat_inj (y := (3 : Half))
  rw [step_of_handleByte s _ b rest herr hi (.inr htime) hbyte, p2InstByte, State.present_len]
  simp only [hthree]
  rfl

/-! ### A payload byte -/

/-- Settles O14: the invariant gives the buffer room and a canonical form, and keeps the count below the length, so that
the new count does not wrap around and the handler's test of it is the rule's. -/
theorem protocolTwoPayloadByteStep : Obligations.ProtocolTwoPayloadByteStep := by
  intro s b rest hinv hb hst htime
  have ⟨_, ⟨hwf, _⟩, hf⟩ := hinv
  simp only [FramingInv, hst] at hf
  obtain ⟨-, -, hcnt, -⟩ := hf
  refine ⟨s.buf.write s.bcnt.toNat b.v, ?_, fun a => Memory.read_write s.buf s.bcnt.toNat a b.v hwf⟩
  have hlast : (s.bcnt + 1).toNat + 3 = s.len.toNat ↔ s.bcnt.toNat + 1 = s.len.toNat - 3 := by
    rw [half_succ_toNat s.bcnt (by have := s.len.isLt; omega)]
    omega
  rw [step_of_payload_byte .p2 s b rest hinv hb hst htime, ← half_succ_eq_ofNat]
  simp only [dataNext, p2DataNext, State.present_len, hlast]
  rfl

/-! ### The low CRC byte -/

/-- Settles O15: R74's handler has no branch and leaves the CRC out. -/
theorem lowCrcByteStep : Obligations.LowCrcByteStep := by
  intro s b rest ⟨herr, hi⟩ hst htime
  have hbyte : handleByte (s.present b rest) = .next (p2Crc1Byte (s.present b rest)) := by simp [handleByte, hst]
  exact step_of_handleByte s _ b rest herr hi (.inr htime) hbyte

end Sys2Proof.Machine

/-! The inter-byte timeout (43_timeout_monitor.md): a late byte discards the frame in progress and begins anew in
IDLE. -/

namespace Sys2Proof.Machine

/-- Settles O17: after the frame reset of R77 the byte is IDLE's (R78), which takes a 0xFF as a new first preamble byte
and leaves the reset state at every other; when a byte is late is the test of R76 in log 8's reading. -/
theorem lateByteDiscardsTheFrame : Obligations.LateByteDiscardsTheFrame := by
  intro s b rest hb hst hlate
  rw [step_of_late s b rest hb hst hlate]
  split
  next hff => rw [idleByte_preamble _ hff]; rfl
  next hstray => rw [idleByte_stray _ hstray, discarded_afterByte]

end Sys2Proof.Machine

/-! The dispatch (44_dispatch.md): which table decodes a frame, the register walk, which records a step can present, and
that the correlation registers change with a record only. -/

namespace Sys2Proof.Machine

/-! ### Table selection -/

/-- The first TABSEL exception that applies decides (44_dispatch.md R83; log 9). -/
theorem frameFamily_of_first_exception (p : Proto) (s : State) (before after : List TabRule) (r : TabRule)
    (hsel : s.par.tabsel = before ++ r :: after) (hbefore : ∀ q ∈ before, ¬ TabApplies p s q)
    (hr : TabApplies p s r) : frameFamily p s = r.fam := by
  have hfind : s.par.tabsel.find? (ruleApplies p s.cfg s.id) = some r := by
    simp only [List.find?_eq_some_iff_append, ruleApplies_iff_tabApplies, Bool.not_eq_true', Bool.eq_false_iff, ne_eq]
    exact ⟨hr, before, after, hsel, hbefore⟩
  simp only [frameFamily, tabSel, hfind]

/-- The family that the configuration names for a protocol (10_state.md R25). -/
def configuredFamily (p : Proto) (c : Cfg) : Family :=
  match p with
  | .p1 => familyOfFam1 c.fam1
  | .p2 => familyOfFam2 c.fam2

/-- The default of TABSEL (44_dispatch.md R83). -/
theorem frameFamily_of_no_exception (p : Proto) (s : State) (h : ∀ r ∈ s.par.tabsel, ¬ TabApplies p s r) :
    frameFamily p s = configuredFamily p s.cfg := by
  have hfind : s.par.tabsel.find? (ruleApplies p s.cfg s.id) = none :=
    List.find?_eq_none.2 fun r hr => (ruleApplies_iff_tabApplies p s r).not.2 (h r hr)
  cases p <;> simp only [frameFamily, tabSel, hfind, configuredFamily]

/-- Settles O33: the default of TABSEL at each valid encoding of R25. -/
theorem defaultTableIsTheConfiguredFamily : Obligations.DefaultTableIsTheConfiguredFamily := by
  intro s
  constructor
  all_goals
    intro hnone
    rw [frameFamily_of_no_exception _ s hnone, configuredFamily]
  · exact ⟨fun h => h ▸ rfl, fun h => h ▸ rfl, fun h => h ▸ rfl, fun h => h ▸ rfl⟩
  · exact ⟨fun h => h ▸ rfl, fun h => h ▸ rfl, fun h => h ▸ rfl⟩

/-- Settles O57: the search of TABSEL stops at its first match. -/
theorem suppliedExceptionSelectsTheTable : Obligations.SuppliedExceptionSelectsTheTable :=
  frameFamily_of_first_exception

/-! ### The register walk -/

@[simp] theorem walk_nil (par : Params) (fam : Family) (a : Half) : walk par fam a [] = [] := rfl

/-- The address of the register after the taken bytes, as a number modulo 65536 (44_dispatch.md R85). -/
theorem half_add_ofNat (a : Half) (t : Nat) : a + BitVec.ofNat 16 t = BitVec.ofNat 16 ((a.toNat + t) % 65536) :=
  BitVec.eq_of_toNat_eq (by simp)

/-- Settles O35: the walk's own equation (`walk_cons`), with the next address as a number. -/
theorem walkTakesRegisterAfterRegister : Obligations.WalkTakesRegisterAfterRegister := by
  intro par fam a d
  refine ⟨walk_nil par fam a, fun hd => ⟨takenBytes par fam a d.length, rfl, ?_⟩⟩
  rw [walk_cons par fam a d hd, half_add_ofNat]
  rfl

/-- What holds of no data, and of data when it holds of what the first register leaves, holds of all data: the walk
shortens the data with every item (44_dispatch.md R85). -/
theorem walk_induction (par : Params) (fam : Family) {P : Half → List Byte → Prop} (hnil : ∀ a, P a [])
    (hcons : ∀ a d, d ≠ [] →
      P (a + BitVec.ofNat 16 (takenBytes par fam a d.length)) (d.drop (takenBytes par fam a d.length)) → P a d)
    (a : Half) (d : List Byte) : P a d := by
  by_cases hd : d = []
  · exact hd ▸ hnil a
  · have hpos : 1 ≤ d.length := List.length_pos_of_ne_nil hd
    have hshorter : (d.drop (takenBytes par fam a d.length)).length < d.length := by
      have htaken := takenBytes_pos par fam a d.length hpos
      rw [List.length_drop]
      omega
    exact hcons a d hd (walk_induction par fam hnil hcons _ _)
termination_by d.length
decreasing_by exact hshorter

@[simp] theorem walkItem_taken (par : Params) (fam : Family) (a : Half) (d : List Byte) :
    (walkItem par fam a d).taken = takenBytes par fam a d.length := rfl

theorem walk_taken_sum (par : Params) (fam : Family) (a : Half) (d : List Byte) :
    ((walk par fam a d).map fun x => x.taken).sum = d.length := by
  induction a, d using walk_induction par fam with
  | hnil a => rfl
  | hcons a d hd ih =>
    have hle := takenBytes_le par fam a d.length
    rw [walk_cons par fam a d hd, List.map_cons, List.sum_cons, ih, List.length_drop, walkItem_taken,
      Nat.add_sub_of_le hle]

/-- An item takes a byte at least, and no more than a register is wide (20_memory.md R39, 44_dispatch.md R85). -/
theorem walk_taken_bounds (par : Params) (fam : Family) (a : Half) (d : List Byte) :
    ∀ x ∈ walk par fam a d, 1 ≤ x.taken ∧ x.taken ≤ 4 := by
  induction a, d using walk_induction par fam with
  | hnil a => simp
  | hcons a d hd ih =>
    rw [walk_cons par fam a d hd, List.forall_mem_cons]
    exact ⟨⟨takenBytes_pos par fam a d.length (List.length_pos_of_ne_nil hd),
      (min_le_left _ _).trans (Width.bytes_le _)⟩, ih⟩

/-- A register that leaves data behind it was read whole. -/
theorem walkItem_whole (par : Params) (fam : Family) (a : Half) (d : List Byte)
    (hrest : d.drop (takenBytes par fam a d.length) ≠ []) : (walkItem par fam a d).part = false := by
  have hlt : takenBytes par fam a d.length < d.length := by simpa using hrest
  have hwhole : (regLut par fam a).width.bytes ≤ takenBytes par fam a d.length := by
    rw [takenBytes] at hlt ⊢
    omega
  exact decide_eq_false (Nat.not_lt.2 hwhole)

theorem walk_dropLast_whole (par : Params) (fam : Family) (a : Half) (d : List Byte) :
    ∀ x ∈ (walk par fam a d).dropLast, x.part = false := by
  induction a, d using walk_induction par fam with
  | hnil a => simp
  | hcons a d hd ih =>
    rw [walk_cons par fam a d hd]
    by_cases hrest : d.drop (takenBytes par fam a d.length) = []
    · simp [hrest]
    · rw [List.dropLast_cons_of_ne_nil (by rw [walk_cons _ _ _ _ hrest]; exact List.cons_ne_nil _ _),
        List.forall_mem_cons]
      exact ⟨walkItem_whole par fam a d hrest, ih⟩

/-- Settles O36, each part by induction along the walk. -/
theorem walkTakesEveryByte : Obligations.WalkTakesEveryByte := fun par fam a d =>
  ⟨walk_taken_sum par fam a d, walk_taken_bounds par fam a d, walk_dropLast_whole par fam a d⟩

/-! ### The correlation registers -/

/-- The correlation registers read as before (10_state.md R23). -/
structure CorrelationKept (s t : State) : Prop where
  lastOpc : LastOpcKept s t
  lastRead : LastReadKept s t
  bulk : BulkKept s t

theorem CorrelationKept.trans {s t u : State} (h : CorrelationKept s t) (h' : CorrelationKept t u) :
    CorrelationKept s u :=
  ⟨h.lastOpc.trans h'.lastOpc, h.lastRead.trans h'.lastRead, fun id => (h'.bulk id).trans (h.bulk id)⟩

theorem correlationKept_present (s : State) (b : ByteEvent) (rest : List ByteEvent) :
    CorrelationKept s (s.present b rest) := ⟨⟨rfl, rfl⟩, ⟨rfl, rfl, rfl⟩, fun _ => rfl⟩

/-- The frame reset of a late byte leaves the correlation registers (10_state.md R30). -/
theorem correlationKept_monitor (s : State) : CorrelationKept s (monitor s) := by
  rcases monitor_cases s with ⟨hm, -⟩ | ⟨hm, -⟩ <;> rw [hm] <;> exact ⟨⟨rfl, rfl⟩, ⟨rfl, rfl, rfl⟩, fun _ => rfl⟩

theorem Quiet.correlationKept {s t : State} (h : Quiet s t) : CorrelationKept s t :=
  ⟨h.lastOpc, h.lastRead, fun _ => by rw [h.bulk]⟩

/-- Everything a step with an event can do to the record port and the correlation registers: present nothing and keep
them, or run an instruction from a state that has them as before. -/
theorem step_event_cases (s t : State) (b : ByteEvent) (rest : List ByteEvent) (hi : s.input = b :: rest)
    (h : step s = .next t) :
    (t.out = none ∧ CorrelationKept s t) ∨
      ∃ i u v, CorrelationKept s u ∧ exec i u = .next v ∧ t = v.setLastByte b := by
  obtain ⟨-, ⟨hnil, -⟩ | ⟨b', rest', v, hi', hv, rfl⟩⟩ := step_cases s t h
  · simp [hnil] at hi
  obtain ⟨rfl, rfl⟩ : b' = b ∧ rest' = rest := by simpa [hi'] using hi
  have hkept := (correlationKept_present s b' rest').trans (correlationKept_monitor _)
  rcases handleByte_cases _ _ hv with hquiet | ⟨p, -, he⟩
  · obtain ⟨hopc, hread, hbulk⟩ := hkept.trans hquiet.correlationKept
    exact .inl ⟨by simp [hquiet.out], hopc, hread, hbulk⟩
  · exact .inr ⟨_, _, v, hkept, he, rfl⟩

/-- What an instruction does to the correlation registers, by the record that it presents (44_dispatch.md R82,
45_requests.md R95, 46_bulk_and_response.md R103). -/
theorem exec_correlation (i : Instr) (s t : State) (h : exec i s = .next t) :
    ∃ r, t.out = some r ∧ (if r.op = .response then LastOpcKept s t else LastOpcIs r.opc t) ∧
      (LastReadKept s t ∨ r.kind = .read) ∧ (BulkKept s t ∨ r.op = .bulkRead) := by
  obtain ⟨res, u, t', hwrites, he, -, hout, hopc, hreg, hcnt, hv, hbulk⟩ := exec_ends i s
  obtain rfl : t' = t := by simpa [he] using h
  refine ⟨_, hout, hopc, ?_⟩
  cases hwrites with
  | none => exact ⟨.inl ⟨hreg, hcnt, hv⟩, .inl fun _ => by rw [hbulk]⟩
  | read a c hmn hkind => exact ⟨.inr hkind, .inl fun _ => by rw [hbulk, State.setLastRead_bulk]⟩
  | bulk hmn => exact ⟨.inl ⟨hreg, hcnt, hv⟩, .inr hmn⟩

/-- Settles O53: a step without a record is quiet or a frame reset; one with a record runs an instruction, whose kind
says which registers it may write. -/
theorem correlationChangesOnlyWithItsRecord : Obligations.CorrelationChangesOnlyWithItsRecord := by
  intro s t b rest hi h
  rcases step_event_cases s t b rest hi h with ⟨hout, hkept⟩ | ⟨i, u, v, hkept, he, rfl⟩
  · rw [hout]
    exact ⟨hkept.lastOpc, .inl hkept.lastRead, .inl hkept.bulk⟩
  · obtain ⟨r, hout, hopc, hread, hbulk⟩ := exec_correlation i u v he
    rw [State.setLastByte_out, hout]
    refine ⟨?_, hread.imp hkept.lastRead.trans fun hk => ⟨r, rfl, hk⟩,
      hbulk.imp (fun hb id => (hb id).trans (hkept.bulk id)) fun hop => ⟨r, rfl, hop⟩⟩
    dsimp only
    split_ifs at hopc ⊢
    · exact hkept.lastOpc.trans hopc
    · exact hopc

/-! ### The shape of a record -/

/-- A handler's result from which a frame's record has its shape, whatever its header and check fields. -/
def ResultFits (mn : Mnemonic) (pay : List Byte) (res : HandlerResult) : Prop :=
  ∀ (p : Proto) (opc : Byte) (s : State), RecordShape (frameRecord p mn opc pay res s)

/-- The ERROR record of a cause that the handler can raise (60_exceptions.md R111). -/
theorem resultFits_truncated (mn : Mnemonic) (pay : List Byte) (c : TruncCause) (h : c ∈ causesOf mn) :
    ResultFits mn pay (.truncated c) := fun _ _ _ => ⟨.inl rfl, rfl, h⟩

/-- A Write's body is that of both kinds of write (45_requests.md R96, R97). -/
theorem resultFits_write (p : Proto) (pay : List Byte) (s : State) :
    ResultFits .write pay (writeResult .write p pay s) ∧
      ResultFits .regWrite pay (writeResult .regWrite p pay s) := by
  unfold writeResult
  split
  · exact ⟨resultFits_truncated _ _ _ (by decide), resultFits_truncated _ _ _ (by decide)⟩
  · exact ⟨fun _ _ _ => ⟨.inr rfl, trivial⟩, fun _ _ _ => ⟨.inr rfl, trivial⟩⟩

/-- The chunks of a Sync Write fail for one cause only (45_requests.md R101). -/
theorem syncChunks_error (par : Params) (fam : Family) (a c : Half) (pay : List Byte) (e : TruncCause)
    (h : syncChunks par fam a c pay = .error e) : e = .syncwChunk := by
  rw [syncChunks] at h
  generalize pay.length = fuel at h
  fun_induction syncChunksLoop par fam a c.toNat fuel pay with
  | case1 => cases h
  | case2 => cases h
  | case3 => exact (Except.error.inj h).symm
  | case4 n sid rest hlen e' he ih => exact ih (he.trans h)
  | case5 => cases h

theorem resultFits_syncWrite (p : Proto) (pay : List Byte) (s : State) :
    ResultFits .syncWrite pay (syncWriteResult p pay s) := by
  unfold syncWriteResult
  split
  · exact resultFits_truncated _ _ _ (by decide)
  · split
    next e he => exact resultFits_truncated _ _ _ (by simp [syncChunks_error _ _ _ _ _ e he, causesOf])
    next => exact fun _ _ _ => ⟨.inr rfl, trivial⟩

/-- The entries of a Bulk Write fail for a short header or for short data (45_requests.md R102). -/
theorem bulkWriteEntries_error (par : Params) (fam : Family) (pay : List Byte) (e : TruncCause)
    (h : bulkWriteEntries par fam pay = .error e) : e ∈ causesOf .bulkWrite := by
  rw [bulkWriteEntries] at h
  generalize pay.length = fuel at h
  fun_induction bulkWriteLoop par fam fuel pay with
  | case1 => cases h
  | case2 => cases h
  | case3 => cases h; decide
  | case4 n sid a0 a1 c0 c1 rest c hc e' he ih => exact ih (he.trans h)
  | case5 => cases h
  | case6 => cases h; decide

theorem resultFits_bulkWrite (p : Proto) (pay : List Byte) (s : State) :
    ResultFits .bulkWrite pay (bulkWriteResult p pay s) := by
  unfold bulkWriteResult
  split
  next e he => exact resultFits_truncated _ _ _ (bulkWriteEntries_error _ _ _ e he)
  next => exact fun _ _ _ => ⟨.inr rfl, trivial⟩

/-- The entries of a Bulk Read fail for one cause only (46_bulk_and_response.md R103). -/
theorem bulkReadEntries_error (par : Params) (fam : Family) (pay : List Byte) (e : TruncCause)
    (h : bulkReadEntries par fam pay = .error e) : e = .bulkrEntry := by
  fun_induction bulkReadEntries par fam pay with
  | case1 => cases h
  | case2 sid a0 a1 c0 c1 rest e' he ih => exact ih (he.trans h)
  | case3 => cases h
  | case4 => exact (Except.error.inj h).symm

theorem resultFits_bulkRead (p : Proto) (pay : List Byte) (s : State) :
    ResultFits .bulkRead pay (bulkReadResult p pay s) := by
  unfold bulkReadResult
  split
  next e he => exact resultFits_truncated _ _ _ (by simp [bulkReadEntries_error _ _ _ e he, causesOf])
  next => exact fun _ _ _ => ⟨.inr rfl, trivial⟩

/-- A Read dispatches its result from the state that it leaves (45_requests.md R95). -/
theorem readFrame_fits (p : Proto) (opc : Byte) (pay : List Byte) (s : State) :
    ∃ res u, ResultFits .read pay res ∧ readFrame p opc pay s = dispatchFrame p .read opc pay res u := by
  unfold readFrame
  split
  · exact ⟨_, _, resultFits_truncated _ _ _ (by decide), rfl⟩
  · refine ⟨_, _, ?_, rfl⟩
    exact fun _ _ _ => ⟨.inr rfl, trivial⟩

/-- Every instruction dispatches a result that fits its mnemonic and payload (44_dispatch.md R87, R88). -/
theorem exec_dispatches_fitting (i : Instr) (s : State) :
    ∃ res u, ResultFits i.mnemonic i.payload res ∧
      exec i s = dispatchFrame i.proto i.mnemonic i.opcode i.payload res u := by
  cases i
  case p1Read pay => exact readFrame_fits .p1 0x02 pay s
  case p2Read pay => exact readFrame_fits .p2 0x02 pay s
  case p1Write pay => exact ⟨_, s, (resultFits_write .p1 pay s).1, rfl⟩
  case p2Write pay => exact ⟨_, s, (resultFits_write .p2 pay s).1, rfl⟩
  case p1RegWrite pay => exact ⟨_, s, (resultFits_write .p1 pay s).2, rfl⟩
  case p2RegWrite pay => exact ⟨_, s, (resultFits_write .p2 pay s).2, rfl⟩
  case p1SyncWrite pay => exact ⟨_, s, resultFits_syncWrite .p1 pay s, rfl⟩
  case p2SyncWrite pay => exact ⟨_, s, resultFits_syncWrite .p2 pay s, rfl⟩
  case p1BulkWrite pay => exact ⟨_, s, resultFits_bulkWrite .p1 pay s, rfl⟩
  case p2BulkWrite pay => exact ⟨_, s, resultFits_bulkWrite .p2 pay s, rfl⟩
  case p1BulkRead pay => exact ⟨_, _, resultFits_bulkRead .p1 pay s, rfl⟩
  case p2BulkRead pay => exact ⟨_, _, resultFits_bulkRead .p2 pay s, rfl⟩
  all_goals refine ⟨_, s, ?_, rfl⟩
  case p2Clear | p2Backup | p2SyncRead | p1Unknown | p2Unknown => exact fun _ _ _ => ⟨.inr rfl, rfl⟩
  all_goals exact fun _ _ _ => ⟨.inr rfl, trivial⟩

/-- The record that an instruction presents has its shape. -/
theorem exec_recordShape (i : Instr) (s t : State) (r : Record) (h : exec i s = .next t) (hr : t.out = some r) :
    RecordShape r := by
  obtain ⟨res, u, hfits, he⟩ := exec_dispatches_fitting i s
  obtain rfl : _ = t := Host.Outcome.next.inj (he.symm.trans h)
  obtain rfl : _ = r := Option.some.inj hr
  exact hfits i.proto i.opcode u

/-- Settles O54: a record comes from an instruction, and every instruction's result fits its mnemonic. -/
theorem everyRecordHasItsShape : Obligations.EveryRecordHasItsShape := by
  intro s t b rest r hi h hr
  rcases step_event_cases s t b rest hi h with ⟨hout, -⟩ | ⟨i, u, v, -, he, rfl⟩
  · simp [hout] at hr
  · exact exec_recordShape i u v r he hr

end Sys2Proof.Machine

/-! The requests (45_requests.md): what each request presents as its record, and that it changes no correlation register
but the last opcode and, in a well-formed Read, the last Read's register and count. -/

namespace Sys2Proof.Machine

/-! ### From a handler's result to the record presented -/

/-- An instruction that dispatches a result presents the record of that result, and the correlation registers other
than the last opcode are those that its handler left (44_dispatch.md R81, R82). -/
theorem emits_of_dispatch (i : Instr) (s u : State) (res : HandlerResult) (hreq : i.mnemonic ≠ .response)
    (he : exec i s = dispatchFrame i.proto i.mnemonic i.opcode i.payload res u) :
    ∃ t, Emits i s t res.kindOf (res.bodyOf i.mnemonic) ∧ LastOpcIs i.opcode t ∧ LastReadKept u t ∧ BulkKept u t := by
  obtain ⟨res', u', t, -, hnext, hended, hout, hopc, -⟩ := exec_ends i s
  rw [if_neg hreq] at hopc
  obtain rfl : _ = t := Host.Outcome.next.inj (he.symm.trans hnext)
  have hrec : frameRecord i.proto i.mnemonic i.opcode i.payload res u =
      frameRecord i.proto i.mnemonic i.opcode i.payload res' s := Option.some.inj hout
  have hkind : res'.kindOf = res.kindOf := (congrArg Record.kind hrec).symm
  have hbody : res'.bodyOf i.mnemonic = res.bodyOf i.mnemonic := (congrArg Record.body hrec).symm
  refine ⟨_, ⟨hnext, hended, _, hout, frameRecord_recordOf _ _ _ _ _ _, hkind, hbody⟩, hopc, ?_, fun _ => ?_⟩
  · simp [LastReadKept]
  · simp

/-- An instruction whose handler writes nothing of its own changes no correlation register but the last opcode. -/
theorem emitsRequest_of_dispatch (i : Instr) (s : State) (res : HandlerResult) (hreq : i.mnemonic ≠ .response)
    (he : exec i s = dispatchFrame i.proto i.mnemonic i.opcode i.payload res s) :
    ∃ t, EmitsRequest i s t res.kindOf (res.bodyOf i.mnemonic) := emits_of_dispatch i s s res hreq he

/-! ### Requests that are not decoded -/

/-- Settles O18: each of the eight dispatches an empty body. -/
theorem operandlessRequestsOnlyRecord : Obligations.OperandlessRequestsOnlyRecord := fun pay s =>
  ⟨emitsRequest_of_dispatch (.p1Ping pay) s (.ok .ping .empty) nofun rfl,
    emitsRequest_of_dispatch (.p2Ping pay) s (.ok .ping .empty) nofun rfl,
    emitsRequest_of_dispatch (.p1Action pay) s (.ok .action .empty) nofun rfl,
    emitsRequest_of_dispatch (.p2Action pay) s (.ok .action .empty) nofun rfl,
    emitsRequest_of_dispatch (.p1FactoryReset pay) s (.ok .factoryReset .empty) nofun rfl,
    emitsRequest_of_dispatch (.p2FactoryReset pay) s (.ok .factoryReset .empty) nofun rfl,
    emitsRequest_of_dispatch (.p1Reboot pay) s (.ok .reboot .empty) nofun rfl,
    emitsRequest_of_dispatch (.p2Reboot pay) s (.ok .reboot .empty) nofun rfl⟩

/-- Settles O22: each of the five dispatches its payload as raw bytes. -/
theorem rawFramesPassThePayload : Obligations.RawFramesPassThePayload := fun opc pay s =>
  ⟨emitsRequest_of_dispatch (.p2Clear pay) s (.ok .clear (.raw pay)) nofun rfl,
    emitsRequest_of_dispatch (.p2Backup pay) s (.ok .backup (.raw pay)) nofun rfl,
    emitsRequest_of_dispatch (.p2SyncRead pay) s (.ok .syncRead (.raw pay)) nofun rfl,
    emitsRequest_of_dispatch (.p1Unknown opc pay) s (.ok .unknown (.raw pay)) nofun rfl,
    emitsRequest_of_dispatch (.p2Unknown opc pay) s (.ok .unknown (.raw pay)) nofun rfl⟩

/-! ### Address and count -/

/-- A 16-bit field at the head of a Protocol 2 payload (30_encoding.md R51). -/
@[simp] theorem fieldOperand_p2 (a : Half) (rest : List Byte) :
    fieldOperand .p2 (loByte a :: hiByte a :: rest) = some (a, rest) := by
  simp [fieldOperand]

theorem addrCountOperands_p1 (a c : Byte) (rest : List Byte) :
    addrCountOperands .p1 (a :: c :: rest) = some (zext16 a, zext16 c, rest) := rfl

theorem addrCountOperands_p2 (a c : Half) (rest : List Byte) :
    addrCountOperands .p2 (loByte a :: hiByte a :: loByte c :: hiByte c :: rest) = some (a, c, rest) := by
  simp [addrCountOperands]

theorem addrCountOperands_p1_short : ∀ pay : List Byte, pay.length < 2 → addrCountOperands .p1 pay = none
  | [], _ => rfl
  | [_], _ => rfl
  | _ :: _ :: _, h => by simp at h

theorem addrCountOperands_p2_short : ∀ pay : List Byte, pay.length < 4 → addrCountOperands .p2 pay = none
  | [], _ => rfl
  | [_], _ => rfl
  | [_, _], _ => rfl
  | [_, _, _], _ => rfl
  | _ :: _ :: _ :: _ :: _, h => by simp only [List.length_cons] at h; omega

/-! ### Read, Write and Reg Write -/

/-- A Read whose address and count are whole (45_requests.md R95). -/
theorem read_emits (p : Proto) (s : State) (pay rest : List Byte) (a c : Half)
    (hops : addrCountOperands p pay = some (a, c, rest)) :
    ∃ t, Emits (byProto p (.p1Read pay) (.p2Read pay)) s t .read (.read a c (regLut s.par (frameFamily p s) a)) ∧
      LastOpcIs 0x02 t ∧ LastReadIs a c t ∧ BulkKept s t := by
  have hframe : readFrame p 0x02 pay s = dispatchFrame p .read 0x02 pay
      (.ok .read (.read a c (regLut s.par (frameFamily p s) a))) (s.setLastRead a c) := by
    simp only [readFrame, hops]
  cases p
  case p1 => exact emits_of_dispatch (.p1Read pay) s (s.setLastRead a c) _ nofun hframe
  case p2 => exact emits_of_dispatch (.p2Read pay) s (s.setLastRead a c) _ nofun hframe

/-- Settles O19: the operands of each protocol, and the one handler of both. -/
theorem readRecordsItsRegister : Obligations.ReadRecordsItsRegister := fun s rest =>
  ⟨fun a c => read_emits .p1 s _ rest (zext16 a) (zext16 c) (addrCountOperands_p1 a c rest),
    fun a c => read_emits .p2 s _ rest a c (addrCountOperands_p2 a c rest)⟩

/-- The body of both kinds of write whose address is whole (45_requests.md R96). -/
theorem writeResult_of_operands (kind : Kind) (p : Proto) (s : State) (pay d : List Byte) (a : Half)
    (hops : addrDataOperands p pay = some (a, d)) :
    writeResult kind p pay s =
      .ok kind (.write a (regLut s.par (frameFamily p s) a) (walk s.par (frameFamily p s) a d)) := by
  simp only [writeResult, hops]

/-- A Write of either protocol presents its handler's result (45_requests.md R96). -/
theorem write_emits (p : Proto) (s : State) (pay : List Byte) (res : HandlerResult)
    (hres : writeResult .write p pay s = res) :
    ∃ t, EmitsRequest (byProto p (.p1Write pay) (.p2Write pay)) s t res.kindOf (res.bodyOf .write) := by
  subst hres
  cases p
  case p1 => exact emitsRequest_of_dispatch (.p1Write pay) s _ nofun rfl
  case p2 => exact emitsRequest_of_dispatch (.p2Write pay) s _ nofun rfl

/-- A Reg Write of either protocol presents its handler's result (45_requests.md R97). -/
theorem regWrite_emits (p : Proto) (s : State) (pay : List Byte) (res : HandlerResult)
    (hres : writeResult .regWrite p pay s = res) :
    ∃ t, EmitsRequest (byProto p (.p1RegWrite pay) (.p2RegWrite pay)) s t res.kindOf (res.bodyOf .regWrite) := by
  subst hres
  cases p
  case p1 => exact emitsRequest_of_dispatch (.p1RegWrite pay) s _ nofun rfl
  case p2 => exact emitsRequest_of_dispatch (.p2RegWrite pay) s _ nofun rfl

/-- Settles O20: the address of each protocol, and the one body of both kinds of write. -/
theorem writesWalkTheirValueBytes : Obligations.WritesWalkTheirValueBytes := by
  intro s d
  refine ⟨fun a => ?_, fun a => ?_⟩
  · have hresult := fun kind => writeResult_of_operands kind .p1 s (a :: d) d (zext16 a) rfl
    exact ⟨write_emits .p1 s _ _ (hresult .write), regWrite_emits .p1 s _ _ (hresult .regWrite)⟩
  · have hresult := fun kind => writeResult_of_operands kind .p2 s _ d a (fieldOperand_p2 a d)
    exact ⟨write_emits .p2 s _ _ (hresult .write), regWrite_emits .p2 s _ _ (hresult .regWrite)⟩

/-! ### Sync Write -/

/-- The bytes of chunks: each a servo ID and its value bytes (45_requests.md R101). -/
def chunkBytes (chunks : List (Byte × List Byte)) : List Byte := chunks.flatMap fun x => x.1 :: x.2

/-- What a record lists for chunks: the walk over each one's bytes from the shared address (45_requests.md R101). -/
def chunksWalked (par : Params) (fam : Family) (a : Half) (chunks : List (Byte × List Byte)) : List Chunk :=
  chunks.map fun x => { sid := x.1, items := walk par fam a x.2 }

@[simp] theorem syncChunks_nil (par : Params) (fam : Family) (a c : Half) : syncChunks par fam a c [] = .ok [] := rfl

/-- A whole chunk in front is listed in front of whatever the bytes after it give. -/
theorem syncChunks_whole_cons (par : Params) (fam : Family) (a c : Half) (sid : Byte) (d rest : List Byte)
    (hd : d.length = c.toNat) :
    syncChunks par fam a c (sid :: (d ++ rest)) =
      (syncChunks par fam a c rest).map ({ sid, items := walk par fam a d } :: ·) := by
  have hroom : ¬ (d ++ rest).length < c.toNat := by
    rw [List.length_append]
    omega
  rw [syncChunks_cons, if_neg hroom, List.drop_left' hd, List.take_left' hd]
  cases syncChunks par fam a c rest <;> rfl

/-- Whole chunks are listed in front of whatever the bytes after them give. -/
theorem syncChunks_chunkBytes_append (par : Params) (fam : Family) (a c : Half) (chunks : List (Byte × List Byte))
    (tail : List Byte) (hchunks : ∀ x ∈ chunks, x.2.length = c.toNat) :
    syncChunks par fam a c (chunkBytes chunks ++ tail) =
      (syncChunks par fam a c tail).map (chunksWalked par fam a chunks ++ ·) := by
  induction chunks with
  | nil => cases h : syncChunks par fam a c tail <;> simp [chunkBytes, chunksWalked, h, Except.map]
  | cons x chunks ih =>
    obtain ⟨hx, hrest⟩ := List.forall_mem_cons.1 hchunks
    have hsplit : chunkBytes (x :: chunks) ++ tail = x.1 :: (x.2 ++ (chunkBytes chunks ++ tail)) := by
      simp [chunkBytes]
    rw [hsplit, syncChunks_whole_cons par fam a c x.1 x.2 _ hx, ih hrest]
    cases syncChunks par fam a c tail <;> rfl

/-- A payload that ends inside a chunk's value bytes is cut short there. -/
theorem syncChunks_short (par : Params) (fam : Family) (a c : Half) (sid : Byte) (tail : List Byte)
    (hshort : tail.length < c.toNat) : syncChunks par fam a c (sid :: tail) = .error .syncwChunk := by
  rw [syncChunks_cons, if_pos hshort]

/-- A Sync Write of either protocol presents its handler's result (45_requests.md R101). -/
theorem syncWrite_emits (p : Proto) (s : State) (pay : List Byte) (res : HandlerResult)
    (hres : syncWriteResult p pay s = res) :
    ∃ t, EmitsRequest (byProto p (.p1SyncWrite pay) (.p2SyncWrite pay)) s t res.kindOf (res.bodyOf .syncWrite) := by
  subst hres
  cases p
  case p1 => exact emitsRequest_of_dispatch (.p1SyncWrite pay) s _ nofun rfl
  case p2 => exact emitsRequest_of_dispatch (.p2SyncWrite pay) s _ nofun rfl

theorem syncWriteResult_whole (p : Proto) (s : State) (pay : List Byte) (a c : Half) (chunks : List (Byte × List Byte))
    (hops : addrCountOperands p pay = some (a, c, chunkBytes chunks))
    (hchunks : ∀ x ∈ chunks, x.2.length = c.toNat) :
    syncWriteResult p pay s =
      .ok .syncWrite (.syncWrite a c (chunksWalked s.par (frameFamily p s) a chunks)) := by
  have hall := syncChunks_chunkBytes_append s.par (frameFamily p s) a c chunks [] hchunks
  rw [List.append_nil] at hall
  simp [syncWriteResult, hops, hall, Except.map]

theorem syncWriteResult_short_header (p : Proto) (s : State) (pay : List Byte)
    (hops : addrCountOperands p pay = none) : syncWriteResult p pay s = .truncated .syncwHdr := by
  simp only [syncWriteResult, hops]

theorem syncWriteResult_short_chunk (p : Proto) (s : State) (pay : List Byte) (a c : Half)
    (chunks : List (Byte × List Byte)) (sid : Byte) (tail : List Byte)
    (hops : addrCountOperands p pay = some (a, c, chunkBytes chunks ++ sid :: tail))
    (hchunks : ∀ x ∈ chunks, x.2.length = c.toNat) (hshort : tail.length < c.toNat) :
    syncWriteResult p pay s = .truncated .syncwChunk := by
  simp [syncWriteResult, hops, syncChunks_chunkBytes_append _ _ _ _ _ _ hchunks, syncChunks_short _ _ _ _ _ _ hshort,
    Except.map]

/-- The count of a Protocol 1 Sync Write is its count byte. -/
theorem lengths_eq_zext16 {chunks : List (Byte × List Byte)} {c : Byte} (h : ∀ x ∈ chunks, x.2.length = c.toNat) :
    ∀ x ∈ chunks, x.2.length = (zext16 c).toNat := by
  simpa using h

/-- Settles O23: by induction on the chunks (`syncChunks_chunkBytes_append`), with nothing after them. -/
theorem syncWriteGivesEveryChunk : Obligations.SyncWriteGivesEveryChunk := fun s chunks =>
  ⟨fun a c hchunks => syncWrite_emits .p1 s _ _
      (syncWriteResult_whole .p1 s _ _ _ chunks (addrCountOperands_p1 a c _) (lengths_eq_zext16 hchunks)),
    fun a c hchunks => syncWrite_emits .p2 s _ _
      (syncWriteResult_whole .p2 s _ a c chunks (addrCountOperands_p2 a c _) hchunks)⟩

/-- Settles O24: by induction on the whole chunks (`syncChunks_chunkBytes_append`), with a short one after them. -/
theorem shortSyncWritesGiveErrorRecords : Obligations.ShortSyncWritesGiveErrorRecords := by
  intro s chunks sid tail
  refine ⟨fun pay hpay => ?_, fun pay hpay => ?_, fun a c hchunks hshort => ?_, fun a c hchunks hshort => ?_⟩
  · exact syncWrite_emits .p1 s pay _ (syncWriteResult_short_header .p1 s pay (addrCountOperands_p1_short pay hpay))
  · exact syncWrite_emits .p2 s pay _ (syncWriteResult_short_header .p2 s pay (addrCountOperands_p2_short pay hpay))
  · exact syncWrite_emits .p1 s _ _ (syncWriteResult_short_chunk .p1 s _ _ _ chunks sid tail
      (addrCountOperands_p1 a c _) (lengths_eq_zext16 hchunks) (by simpa using hshort))
  · exact syncWrite_emits .p2 s _ _ (syncWriteResult_short_chunk .p2 s _ a c chunks sid tail
      (addrCountOperands_p2 a c _) hchunks hshort)

/-! ### Bulk Write -/

/-- The bytes of a Bulk Write's entries: each a 5-byte header and its data (45_requests.md R102). -/
def bulkWriteBytes (entries : List ((Byte × Half × Half) × List Byte)) : List Byte :=
  entries.flatMap fun e => entryBytes e.1 ++ e.2

/-- What a record lists for entries: the walk over each one's data from its own address (45_requests.md R102). -/
def entriesWalked (par : Params) (fam : Family) (entries : List ((Byte × Half × Half) × List Byte)) :
    List BulkWriteItem :=
  entries.map fun e => { sid := e.1.1, addr := e.1.2.1, count := e.1.2.2, items := walk par fam e.1.2.1 e.2 }

@[simp] theorem bulkWriteEntries_nil (par : Params) (fam : Family) : bulkWriteEntries par fam [] = .ok [] := rfl

/-- A whole entry in front is listed in front of whatever the bytes after it give. -/
theorem bulkWriteEntries_whole_cons (par : Params) (fam : Family) (sid : Byte) (a c : Half) (d rest : List Byte)
    (hd : d.length = c.toNat) :
    bulkWriteEntries par fam (entryBytes (sid, a, c) ++ (d ++ rest)) =
      (bulkWriteEntries par fam rest).map ({ sid, addr := a, count := c, items := walk par fam a d } :: ·) := by
  have hroom : ¬ c.toNat > (d ++ rest).length := by
    rw [List.length_append]
    omega
  simp only [entryBytes, List.cons_append, List.nil_append]
  rw [bulkWriteEntries_cons, le16_loByte_hiByte, le16_loByte_hiByte, if_neg hroom, List.drop_left' hd,
    List.take_left' hd]
  cases bulkWriteEntries par fam rest <;> rfl

/-- Whole entries are listed in front of whatever the bytes after them give. -/
theorem bulkWriteEntries_bulkWriteBytes_append (par : Params) (fam : Family)
    (entries : List ((Byte × Half × Half) × List Byte)) (tail : List Byte)
    (hentries : ∀ e ∈ entries, e.2.length = e.1.2.2.toNat) :
    bulkWriteEntries par fam (bulkWriteBytes entries ++ tail) =
      (bulkWriteEntries par fam tail).map (entriesWalked par fam entries ++ ·) := by
  induction entries with
  | nil => cases h : bulkWriteEntries par fam tail <;> simp [bulkWriteBytes, entriesWalked, h, Except.map]
  | cons e entries ih =>
    obtain ⟨he, hrest⟩ := List.forall_mem_cons.1 hentries
    have hsplit : bulkWriteBytes (e :: entries) ++ tail =
        entryBytes e.1 ++ (e.2 ++ (bulkWriteBytes entries ++ tail)) := by
      simp [bulkWriteBytes]
    rw [hsplit, bulkWriteEntries_whole_cons par fam e.1.1 e.1.2.1 e.1.2.2 e.2 _ he, ih hrest]
    cases bulkWriteEntries par fam tail <;> rfl

/-- A payload that ends inside an entry's header is cut short there. -/
theorem bulkWriteEntries_short_header (par : Params) (fam : Family) :
    ∀ tail : List Byte, 1 ≤ tail.length → tail.length ≤ 4 → bulkWriteEntries par fam tail = .error .bulkwHdr
  | [], h, _ => by simp at h
  | [_], _, _ => rfl
  | [_, _], _, _ => rfl
  | [_, _, _], _, _ => rfl
  | [_, _, _, _], _, _ => rfl
  | _ :: _ :: _ :: _ :: _ :: _, _, h => by simp only [List.length_cons] at h; omega

/-- A payload that ends inside an entry's data is cut short there. -/
theorem bulkWriteEntries_short_data (par : Params) (fam : Family) (e : Byte × Half × Half) (tail : List Byte)
    (hshort : tail.length < e.2.2.toNat) :
    bulkWriteEntries par fam (entryBytes e ++ tail) = .error .bulkwData := by
  simp only [entryBytes, List.cons_append, List.nil_append]
  rw [bulkWriteEntries_cons, le16_loByte_hiByte, if_pos hshort]

/-- A Bulk Write of either protocol presents its handler's result (45_requests.md R102). -/
theorem bulkWrite_emits (p : Proto) (s : State) (pay : List Byte) (res : HandlerResult)
    (hres : bulkWriteResult p pay s = res) :
    ∃ t, EmitsRequest (byProto p (.p1BulkWrite pay) (.p2BulkWrite pay)) s t res.kindOf (res.bodyOf .bulkWrite) := by
  subst hres
  cases p
  case p1 => exact emitsRequest_of_dispatch (.p1BulkWrite pay) s _ nofun rfl
  case p2 => exact emitsRequest_of_dispatch (.p2BulkWrite pay) s _ nofun rfl

/-- Settles O25: by induction on the entries (`bulkWriteEntries_bulkWriteBytes_append`), with nothing after them. -/
theorem bulkWriteGivesEveryEntry : Obligations.BulkWriteGivesEveryEntry := by
  intro p s entries hentries
  have hall := bulkWriteEntries_bulkWriteBytes_append s.par (frameFamily p s) entries [] hentries
  rw [List.append_nil] at hall
  have hres : bulkWriteResult p (bulkWriteBytes entries) s =
      .ok .bulkWrite (.bulkWrite (entriesWalked s.par (frameFamily p s) entries)) := by
    simp [bulkWriteResult, hall, Except.map]
  exact bulkWrite_emits p s _ _ hres

/-- Bytes that are cut short are cut short for the same cause after whole entries. -/
theorem bulkWriteResult_short (p : Proto) (s : State) (entries : List ((Byte × Half × Half) × List Byte))
    (tail : List Byte) (cause : TruncCause) (hentries : ∀ e ∈ entries, e.2.length = e.1.2.2.toNat)
    (htail : bulkWriteEntries s.par (frameFamily p s) tail = .error cause) :
    bulkWriteResult p (bulkWriteBytes entries ++ tail) s = .truncated cause := by
  simp [bulkWriteResult, bulkWriteEntries_bulkWriteBytes_append _ _ _ _ hentries, htail, Except.map]

/-- Settles O26: the cause of what comes after the whole entries. -/
theorem shortBulkWritesGiveErrorRecords : Obligations.ShortBulkWritesGiveErrorRecords := by
  rintro p s entries e tail pay hentries rfl
  refine ⟨fun hmin hmax => ?_, fun hshort => ?_⟩
  · exact bulkWrite_emits p s _ _ (bulkWriteResult_short p s entries tail .bulkwHdr hentries
      (bulkWriteEntries_short_header _ _ tail hmin hmax))
  · rw [List.append_assoc]
    exact bulkWrite_emits p s _ _ (bulkWriteResult_short p s entries (entryBytes e ++ tail) .bulkwData hentries
      (bulkWriteEntries_short_data _ _ e tail hshort))

/-! ### Printed frames -/

/-- Settles O46: the printed frames are evaluated, check values and all. -/
theorem printedFramesDecode : Obligations.PrintedFramesDecode := ⟨rfl, rfl, rfl, rfl⟩

end Sys2Proof.Machine

/-! Bulk Read and Response (46_bulk_and_response.md): what a Bulk Read writes into the correlation map, how a Response
is decoded, and that a Response after a Bulk Read is decoded by the entry that names its servo. -/

namespace Sys2Proof.Machine

/-! ### The map after a Bulk Read -/

/-- The map entry that an entry of a Bulk Read writes (46_bulk_and_response.md R103). -/
def BulkEntry.ofRead (e : Byte × Half × Half) : BulkEntry := { v := true, reg := e.2.1, cnt := e.2.2 }

/-- The last entry of a Bulk Read that names a servo (46_bulk_and_response.md R104). -/
def lastNaming (entries : List (Byte × Half × Half)) (id : Byte) : Option (Byte × Half × Half) :=
  entries.reverse.find? fun e => e.1 == id

theorem lastNaming_nil (id : Byte) : lastNaming [] id = none := rfl

/-- A later entry for the servo counts before the first one. -/
theorem lastNaming_cons (e : Byte × Half × Half) (entries : List (Byte × Half × Half)) (id : Byte) :
    lastNaming (e :: entries) id = (lastNaming entries id).or (if id = e.1 then some e else none) := by
  simp [lastNaming, List.find?_append, List.find?_singleton, eq_comm (a := id)]

theorem lastNaming_of_none_after (before after : List (Byte × Half × Half)) (e : Byte × Half × Half)
    (hafter : ∀ x ∈ after, x.1 ≠ e.1) : lastNaming (before ++ e :: after) e.1 = some e := by
  rw [lastNaming, List.find?_eq_some_iff_append]
  exact ⟨beq_self_eq_true e.1, after.reverse, before.reverse, by simp, by simpa using hafter⟩

/-- A tail shorter than an entry writes nothing. -/
theorem bulkReadWrites_short (m : BulkMap) : ∀ tail : List Byte, tail.length < 5 → bulkReadWrites m tail = m
  | [], _ => rfl
  | [_], _ => rfl
  | [_, _], _ => rfl
  | [_, _, _], _ => rfl
  | [_, _, _, _], _ => rfl
  | _ :: _ :: _ :: _ :: _ :: _, h => by simp only [List.length_cons] at h; omega

/-- A whole entry in front is written before the entries after it. -/
theorem bulkReadWrites_entryBytes_append (m : BulkMap) (e : Byte × Half × Half) (rest : List Byte) :
    bulkReadWrites m (entryBytes e ++ rest) = bulkReadWrites (m.write e.1 (.ofRead e)) rest := by
  simp only [entryBytes, List.cons_append, List.nil_append, bulkReadWrites_cons, le16_loByte_hiByte, BulkEntry.ofRead]

/-- Every servo's map entry after a Bulk Read's writes: that of the last entry naming it, or the one it had. -/
theorem read_bulkReadWrites (entries : List (Byte × Half × Half)) (tail : List Byte) (htail : tail.length < 5)
    (m : BulkMap) (hm : m.wf = true) (id : Byte) :
    (bulkReadWrites m (entries.flatMap entryBytes ++ tail)).read id =
      (lastNaming entries id).elim (m.read id) .ofRead := by
  induction entries generalizing m with
  | nil => rw [List.flatMap_nil, List.nil_append, bulkReadWrites_short m tail htail, lastNaming_nil, Option.elim_none]
  | cons e entries ih =>
    rw [List.flatMap_cons, List.append_assoc, bulkReadWrites_entryBytes_append, ih _ (BulkMap.wf_write m _ _ hm),
      BulkMap.read_write m _ _ _ hm, lastNaming_cons]
    cases lastNaming entries id with
    | some x => rfl
    | none => by_cases hid : id = e.1 <;> simp [hid]

/-! ### The record of a Bulk Read -/

/-- What a record lists for the entries of a Bulk Read (46_bulk_and_response.md R103). -/
def entriesDescribed (par : Params) (fam : Family) (entries : List (Byte × Half × Half)) : List BulkReadItem :=
  entries.map fun e => { sid := e.1, addr := e.2.1, count := e.2.2, reg := regLut par fam e.2.1 }

/-- Whole entries are listed in front of whatever the bytes after them give. -/
theorem bulkReadEntries_entryBytes_append (par : Params) (fam : Family) (entries : List (Byte × Half × Half))
    (tail : List Byte) :
    bulkReadEntries par fam (entries.flatMap entryBytes ++ tail) =
      (bulkReadEntries par fam tail).map (entriesDescribed par fam entries ++ ·) := by
  induction entries with
  | nil => cases h : bulkReadEntries par fam tail <;> simp [entriesDescribed, h, Except.map]
  | cons e entries ih =>
    simp only [List.flatMap_cons, entryBytes, List.cons_append, List.nil_append] at ih ⊢
    rw [bulkReadEntries, ih, le16_loByte_hiByte, le16_loByte_hiByte]
    cases bulkReadEntries par fam tail <;> rfl

/-- A payload that ends inside an entry is cut short there (60_exceptions.md R111). -/
theorem bulkReadEntries_short (par : Params) (fam : Family) :
    ∀ tail : List Byte, tail ≠ [] → tail.length < 5 → bulkReadEntries par fam tail = .error .bulkrEntry
  | [], h, _ => absurd rfl h
  | [_], _, _ => rfl
  | [_, _], _, _ => rfl
  | [_, _, _], _, _ => rfl
  | [_, _, _, _], _, _ => rfl
  | _ :: _ :: _ :: _ :: _ :: _, _, h => by simp only [List.length_cons] at h; omega

theorem bulkReadResult_whole (p : Proto) (s : State) (entries : List (Byte × Half × Half)) :
    bulkReadResult p (entries.flatMap entryBytes) s =
      .ok .bulkRead (.bulkRead (entriesDescribed s.par (frameFamily p s) entries)) := by
  have hall := bulkReadEntries_entryBytes_append s.par (frameFamily p s) entries []
  rw [List.append_nil] at hall
  simp [bulkReadResult, hall, bulkReadEntries, Except.map]

theorem bulkReadResult_short (p : Proto) (s : State) (entries : List (Byte × Half × Half)) (tail : List Byte)
    (hne : tail ≠ []) (htail : tail.length < 5) :
    bulkReadResult p (entries.flatMap entryBytes ++ tail) s = .truncated .bulkrEntry := by
  simp [bulkReadResult, bulkReadEntries_entryBytes_append, bulkReadEntries_short _ _ tail hne htail, Except.map]

/-- A Bulk Read of either protocol presents its handler's result and leaves its writes in the map, whether its payload
is cut short or not (46_bulk_and_response.md R103). -/
theorem bulkRead_emits (p : Proto) (s : State) (pay : List Byte) (res : HandlerResult)
    (hres : bulkReadResult p pay s = res) :
    ∃ t, Emits (byProto p (.p1BulkRead pay) (.p2BulkRead pay)) s t res.kindOf (res.bodyOf .bulkRead) ∧
      LastOpcIs 0x92 t ∧ LastReadKept s t ∧ BulkKept (s.setBulk (bulkReadWrites s.bulk pay)) t := by
  subst hres
  cases p
  case p1 => exact emits_of_dispatch (.p1BulkRead pay) s (s.setBulk (bulkReadWrites s.bulk pay)) _ nofun rfl
  case p2 => exact emits_of_dispatch (.p2BulkRead pay) s (s.setBulk (bulkReadWrites s.bulk pay)) _ nofun rfl

/-- Settles O27: the record by whether there is a tail, the map by induction on the entries (`read_bulkReadWrites`). -/
theorem bulkReadWritesTheMap : Obligations.BulkReadWritesTheMap := by
  rintro p s entries tail pay hwf rfl htail
  have hmap : ∀ id, (bulkReadWrites s.bulk (entries.flatMap entryBytes ++ tail)).read id =
      match entries.reverse.find? (fun e => e.1 == id) with
      | some e => { v := true, reg := e.2.1, cnt := e.2.2 }
      | none => s.bulk.read id := by
    intro id
    rw [read_bulkReadWrites entries tail htail s.bulk hwf, lastNaming]
    cases entries.reverse.find? (fun e => e.1 == id) <;> rfl
  by_cases hne : tail = []
  · subst hne
    rw [List.append_nil] at hmap ⊢
    obtain ⟨t, hemits, hopc, hread, hbulk⟩ := bulkRead_emits p s _ _ (bulkReadResult_whole p s entries)
    exact ⟨t, hemits, hopc, hread, fun id => (hbulk id).trans (hmap id)⟩
  · rw [if_neg hne, if_neg hne]
    obtain ⟨t, hemits, hopc, hread, hbulk⟩ := bulkRead_emits p s _ _ (bulkReadResult_short p s entries tail hne htail)
    exact ⟨t, hemits, hopc, hread, fun id => (hbulk id).trans (hmap id)⟩

/-! ### Responses -/

/-- An instruction that dispatches a Response's result presents its record and changes no correlation register
(44_dispatch.md R82). -/
theorem emitsResponse_of_dispatch (i : Instr) (s : State) (res : HandlerResult) (hresp : i.mnemonic = .response)
    (he : exec i s = dispatchFrame i.proto i.mnemonic i.opcode i.payload res s) :
    ∃ t, Emits i s t res.kindOf (res.bodyOf i.mnemonic) ∧ LastOpcKept s t ∧ LastReadKept s t ∧ BulkKept s t := by
  obtain ⟨-, -, t, -, hnext, hended, -, hopc, -⟩ := exec_ends i s
  rw [if_pos hresp] at hopc
  obtain rfl : _ = t := Host.Outcome.next.inj (he.symm.trans hnext)
  refine ⟨_, ⟨hnext, hended, _, rfl, frameRecord_recordOf _ _ _ _ _ _, rfl, rfl⟩, hopc, ?_, fun _ => ?_⟩
  · simp [LastReadKept]
  · simp

/-- A Response of either protocol presents the body that its handler decodes (46_bulk_and_response.md R105). -/
theorem response_emits (p : Proto) (s : State) (pay : List Byte) (body : RespBody)
    (hbody : responseBody p pay s = body) : EmitsResponse p pay s body := by
  subst hbody
  cases p
  case p1 => exact emitsResponse_of_dispatch (.p1Response pay) s (.ok .response (.response _)) rfl rfl
  case p2 => exact emitsResponse_of_dispatch (.p2Response pay) s (.ok .response (.response _)) rfl rfl

/-- The model's test of the last request is the statements' `LastOpcIs`. -/
theorem lastWas_iff (o : Byte) (s : State) : lastWas o s = true ↔ LastOpcIs o s := by
  simp [lastWas, LastOpcIs, and_comm]

theorem LastOpcIs.unique {o o' : Byte} {s : State} (h : LastOpcIs o s) (h' : LastOpcIs o' s) : o = o' :=
  h.1.symm.trans h'.1

/-- The status byte as the statements read it: the top bit and the value of the others
(46_bulk_and_response.md R106). -/
theorem respStatus_eq_statusOf (p : Proto) (b : Byte) : respStatus p b = statusOf p b := by
  cases p with
  | p1 => rfl
  | p2 =>
    have halert : b.getLsbD 7 = decide (128 ≤ b.toNat) := BitVec.msb_eq_decide b
    have hcode : b.setWidth 7 = BitVec.ofNat 7 (b.toNat % 128) := BitVec.eq_of_toNat_eq (by simp)
    rw [respStatus, statusOf, halert, hcode]

/-- A Response with a status byte whose data stay raw. -/
def rawReply (p : Proto) (st : Byte) (data : List Byte) : RespBody :=
  { RespBody.blank with status := some (statusOf p st), data := data }

/-- The model's test of the Ping-reply form: the last request is a Ping, and the data hold model number and firmware
version (46_bulk_and_response.md R105). -/
theorem pingForm_iff (s : State) (st : Byte) (data : List Byte) :
    (lastWas 0x01 s && decide (4 ≤ (st :: data).length)) = true ↔ LastOpcIs 0x01 s ∧ 3 ≤ data.length := by
  rw [Bool.and_eq_true, lastWas_iff, decide_eq_true_eq, List.length_cons, Nat.succ_le_succ_iff]

/-- The body of a Ping reply (46_bulk_and_response.md R105). -/
theorem responseBody_ping (p : Proto) (s : State) (st fw : Byte) (model : Half) (rest : List Byte)
    (hping : LastOpcIs 0x01 s) :
    responseBody p (st :: loByte model :: hiByte model :: fw :: rest) s =
      { rawReply p st (loByte model :: hiByte model :: fw :: rest) with
        corr := .ping, model := some model, fw := some fw } := by
  have hform := (pingForm_iff s st (loByte model :: hiByte model :: fw :: rest)).2 ⟨hping, by simp⟩
  simp only [responseBody, if_pos hform, respStatus_eq_statusOf, rawReply, List.getD_cons_zero, List.getD_cons_succ,
    le16_loByte_hiByte]

/-- The body of a Response to a Bulk Read, by the map entry of its own ID (46_bulk_and_response.md R105). -/
theorem responseBody_bulk (p : Proto) (s : State) (st : Byte) (data : List Byte) (hbulk : LastOpcIs 0x92 s) :
    responseBody p (st :: data) s =
      if (s.bulk.read s.id).v then
        correlated .bulk (s.bulk.read s.id).reg (s.bulk.read s.id).cnt p (rawReply p st data) s
      else { rawReply p st data with corr := .bulkMiss } := by
  have hform := (pingForm_iff s st data).not.2 fun h => absurd (h.1.unique hbulk) (by decide)
  simp only [responseBody, if_neg hform, if_pos ((lastWas_iff _ _).2 hbulk), respStatus_eq_statusOf, rawReply]

/-- The body of every other Response, by the last Read (46_bulk_and_response.md R105). -/
theorem responseBody_other (p : Proto) (s : State) (st : Byte) (data : List Byte) (hbulk : ¬ LastOpcIs 0x92 s)
    (hping : ¬ LastOpcIs 0x01 s ∨ data.length < 3) :
    responseBody p (st :: data) s =
      if s.lastRegV then correlated .read s.lastReg s.lastCnt p (rawReply p st data) s else rawReply p st data := by
  have hform := (pingForm_iff s st data).not.2 (by rwa [not_and_or, Nat.not_le])
  simp only [responseBody, if_neg hform, if_neg ((lastWas_iff _ _).not.2 hbulk), respStatus_eq_statusOf, rawReply]

/-- Settles O28: nothing is decoded of an empty payload. -/
theorem emptyResponseDecodesNothing : Obligations.EmptyResponseDecodesNothing := fun p s =>
  response_emits p s [] RespBody.blank rfl

/-- Settles O29: the Ping-reply form of the body. -/
theorem pingReplyGivesModelAndFirmware : Obligations.PingReplyGivesModelAndFirmware :=
  fun p s st fw model rest hping => response_emits p s _ _ (responseBody_ping p s st fw model rest hping)

/-- Settles O30: the Bulk Read form of the body, with a map entry and without. -/
theorem bulkReplyUsesTheMap : Obligations.BulkReplyUsesTheMap := by
  intro p s st data hbulk
  have hbody := responseBody_bulk p s st data hbulk
  refine ⟨fun hv => ?_, fun hv => ?_⟩
  · exact response_emits p s _ _ (hbody.trans (if_pos hv))
  · exact response_emits p s _ _ (hbody.trans (if_neg (Bool.eq_false_iff.1 hv)))

/-- Settles O31: the generic form of the body, with a last Read and without. -/
theorem otherReplyUsesTheLastRead : Obligations.OtherReplyUsesTheLastRead := by
  intro p s st data hbulk hping
  have hbody := responseBody_other p s st data hbulk hping
  refine ⟨fun hv => ?_, fun hv => ?_⟩
  · exact response_emits p s _ _ (hbody.trans (if_pos hv))
  · exact response_emits p s _ _ (hbody.trans (if_neg (Bool.eq_false_iff.1 hv)))

/-! ### A Response after a Bulk Read -/

/-- Settles O32: the Bulk Read leaves the entry of the last one that names the servo (`read_bulkReadWrites`), and the
Response is decoded by it (`bulkReplyUsesTheMap`). -/
theorem bulkReadThenResponseCorrelates : Obligations.BulkReadThenResponseCorrelates := by
  rintro p q s t u before after sid st a c pay data hwf rfl hafter hexec ⟨hentry, ⟨hopc, hopcV⟩, hid⟩
  obtain ⟨t', hemits, ⟨hlast, hlastV⟩, -, hbulk⟩ := bulkRead_emits p s _ _ (bulkReadResult_whole p s _)
  obtain rfl : t' = t := Host.Outcome.next.inj (hemits.1.symm.trans hexec)
  have hwritten := read_bulkReadWrites (before ++ (sid, a, c) :: after) [] (by decide) s.bulk hwf sid
  rw [List.append_nil, lastNaming_of_none_after before after (sid, a, c) hafter] at hwritten
  have hread : u.bulk.read u.id = .ofRead (sid, a, c) := by
    rw [hid, hentry, hbulk sid]
    exact hwritten
  have hreply := (bulkReplyUsesTheMap q u st data ⟨hopc.trans hlast, hopcV.trans hlastV⟩).1
  rw [hread] at hreply
  exact hreply rfl

end Sys2Proof.Machine

/-! The exceptions (60_exceptions.md): the session fault of an invalid configuration and the idle block, that nothing
else stops the machine, payloads too short for a Read or a Write, and the check mismatch as a mere annotation. -/

namespace Sys2Proof.Machine

/-! ### The session fault and the idle block -/

/-- Settles O2: `step` asks for `cfg_err` before all else (R109; log 11). -/
theorem configErrorStopsEveryStep : Obligations.ConfigErrorStopsEveryStep := step_of_cfgErr

/-- Settles O3: the idle block of R120 (log 1). -/
theorem noEventKeepsAllState : Obligations.NoEventKeepsAllState := step_of_no_input

/-! ### Nothing else stops the machine

A handler stops only for an index that the buffer does not have (20_memory.md R31): a payload state where it appends, a
trailer state where it takes the payload. The invariant bounds both. -/

/-- At a last trailer byte the payload lies within the buffer (40_frame_sync.md R59, 42_p2_decoder.md R71). -/
theorem payload_fits_at_trailer (s : State) (hinv : Inv s) (hst : s.st = .p1Chk ∨ s.st = .p2Crc2) :
    s.bcnt.toNat ≤ s.par.payloadCap := by
  obtain ⟨-, -, hf⟩ := hinv
  rcases hst with hst | hst <;> simp only [FramingInv, hst] at hf
  · obtain ⟨⟨-, -, -, -, -, -, hcap⟩, hcnt, -⟩ := hf
    omega
  · obtain ⟨⟨-, -, hcap⟩, hcnt, -⟩ := hf
    omega

/-- A payload state's handler answers where the buffer has room. -/
theorem handleByte_payload_answers (p : Proto) (s : State) (hinv : Inv s) (hst : s.st = payloadSt p) :
    ∃ t, handleByte s = .next t := by
  rw [handleByte_payload p s hst, bufAppend_of_room s _ (room_of_payloadSt p hinv hst)]
  exact ⟨_, rfl⟩

/-- A trailer state's handler answers where the payload fits: no instruction stops. -/
theorem trailerByte_answers (p : Proto) (s : State) (hfits : s.bcnt.toNat ≤ s.par.payloadCap) :
    ∃ t, trailerByte p s = .next t := by
  rw [trailerByte_of_fits p s hfits]
  exact exec_next _ s

/-- Every handler answers a next state under the invariant. -/
theorem handleByte_answers (s : State) (hinv : Inv s) : ∃ t, handleByte s = .next t := by
  rcases hst : s.st
  case p1Data => exact handleByte_payload_answers .p1 s hinv hst
  case p2Data => exact handleByte_payload_answers .p2 s hinv hst
  all_goals simp only [handleByte, hst]
  case p1Chk => exact trailerByte_answers .p1 s (payload_fits_at_trailer s hinv (.inl hst))
  case p2Crc2 => exact trailerByte_answers .p2 s (payload_fits_at_trailer s hinv (.inr hst))
  all_goals exact ⟨_, rfl⟩

/-- The step answers under the invariant with a valid configuration, whatever the input. -/
theorem step_answers (s : State) (hinv : Inv s) (herr : s.cfgErr = false) : ∃ t, step s = .next t := by
  rcases hi : s.input with _ | ⟨b, rest⟩
  · exact ⟨s, step_of_no_input s herr hi⟩
  · have hpresent : Inv (s.present b rest) := hinv
    obtain ⟨u, hu⟩ := handleByte_answers _ (inv_monitor _ hpresent)
    exact ⟨u.setLastByte b, by rw [step_of_event s b rest herr hi, hu, mapNext_next]⟩

/-- Settles O49, by induction on the number of steps: each answers (`step_answers`), keeps the invariant (O48) and
leaves `cfg_err` 0 (O51). -/
theorem validConfigurationNeverStops : Obligations.ValidConfigurationNeverStops := by
  intro s hinv herr k
  induction k generalizing s with
  | zero => exact ⟨s, runsTo_zero s⟩
  | succ k ih =>
    obtain ⟨t, hstep⟩ := step_answers s hinv herr
    obtain ⟨-, -, hkept⟩ := noStepChangesTheConfiguration s t hstep
    obtain ⟨u, hrun⟩ := ih t (everyStepKeepsTheInvariant s t hinv hstep) (hkept.trans herr)
    exact ⟨u, (runsTo_succ_iff k s u).2 ⟨t, hstep, hrun⟩⟩

/-! ### Payloads too short for a Read or a Write -/

theorem addrDataOperands_p1_short : ∀ pay : List Byte, pay.length < 1 → addrDataOperands .p1 pay = none
  | [], _ => rfl
  | _ :: _, h => by simp at h

theorem addrDataOperands_p2_short : ∀ pay : List Byte, pay.length < 2 → addrDataOperands .p2 pay = none
  | [], _ => rfl
  | [_], _ => rfl
  | _ :: _ :: _, h => by simp at h

/-- A Read without a whole address and count writes nothing of its own (45_requests.md R95). -/
theorem shortRead_emits (p : Proto) (s : State) (pay : List Byte) (hops : addrCountOperands p pay = none) :
    ∃ t, EmitsRequest (byProto p (.p1Read pay) (.p2Read pay)) s t .error (.error .read .read) := by
  have hframe : readFrame p 0x02 pay s = dispatchFrame p .read 0x02 pay (.truncated .read) s := by
    simp only [readFrame, hops]
  cases p
  case p1 => exact emitsRequest_of_dispatch (.p1Read pay) s (.truncated .read) nofun hframe
  case p2 => exact emitsRequest_of_dispatch (.p2Read pay) s (.truncated .read) nofun hframe

/-- Both kinds of write are cut short for one cause (45_requests.md R96, R97). -/
theorem writeResult_short (kind : Kind) (p : Proto) (s : State) (pay : List Byte)
    (hops : addrDataOperands p pay = none) : writeResult kind p pay s = .truncated .write := by
  simp only [writeResult, hops]

/-- Settles O21: the length bounds of each protocol, and the handlers of both. -/
theorem shortReadsAndWritesGiveErrorRecords : Obligations.ShortReadsAndWritesGiveErrorRecords := by
  intro s pay
  refine ⟨fun h => shortRead_emits .p1 s pay (addrCountOperands_p1_short pay h),
    fun h => shortRead_emits .p2 s pay (addrCountOperands_p2_short pay h), fun h => ?_, fun h => ?_⟩
  · have hresult := fun kind => writeResult_short kind .p1 s pay (addrDataOperands_p1_short pay h)
    exact ⟨write_emits .p1 s pay _ (hresult .write), regWrite_emits .p1 s pay _ (hresult .regWrite)⟩
  · have hresult := fun kind => writeResult_short kind .p2 s pay (addrDataOperands_p2_short pay h)
    exact ⟨write_emits .p2 s pay _ (hresult .write), regWrite_emits .p2 s pay _ (hresult .regWrite)⟩

/-! ### The check mismatch

Changing the received check bytes commutes with every instruction: no handler reads them, only the record's annotation
does (R112), and the frame's end resets the low CRC byte (10_state.md R30). -/

/-- The received check value of a trailer: the low CRC byte held and the byte on the port (41_p1_decoder.md R63,
42_p2_decoder.md R75). -/
def receivedCheck (p : Proto) (lo v : Byte) : Half :=
  match p with
  | .p1 => zext16 v
  | .p2 => le16 lo v

/-- The state with another low CRC byte held and another trailer byte on the port. -/
def State.withReceived (lo v : Byte) (s : State) : State := { s with rxLo := lo, cur := { s.cur with v := v } }

/-- The record with another received check value and the verdict on it (44_dispatch.md R86). -/
def Record.annotated (act : Half) (r : Record) : Record := { r with chkOk := r.chkExp == act, chkAct := act }

/-- The end of a frame with another trailer byte on the port and the record presented annotated anew. -/
def State.annotated (p : Proto) (lo v : Byte) (t : State) : State :=
  { t with cur := { t.cur with v := v }, out := t.out.map (Record.annotated (receivedCheck p lo v)) }

section
variable (lo v : Byte)

theorem chkAct_withReceived (p : Proto) (s : State) : chkAct p (s.withReceived lo v) = receivedCheck p lo v := by
  cases p <;> rfl

theorem chkExp_withReceived (p : Proto) (s : State) : chkExp p (s.withReceived lo v) = chkExp p s := by
  cases p <;> rfl

theorem frameRecord_withReceived (p : Proto) (mn : Mnemonic) (opc : Byte) (pay : List Byte) (res : HandlerResult)
    (s : State) : frameRecord p mn opc pay res (s.withReceived lo v) =
      (frameRecord p mn opc pay res s).annotated (receivedCheck p lo v) := by
  simp only [frameRecord, chkOk, chkAct_withReceived, chkExp_withReceived]
  rfl

theorem dispatchFrame_withReceived (p : Proto) (mn : Mnemonic) (opc : Byte) (pay : List Byte) (res : HandlerResult)
    (s : State) : dispatchFrame p mn opc pay res (s.withReceived lo v) =
      mapNext (State.annotated p lo v) (dispatchFrame p mn opc pay res s) := by
  by_cases hm : mn = .response <;>
    simp only [dispatchFrame, noteOpcode, hm, if_true, if_false, frameRecord_withReceived, mapNext_next] <;> rfl

theorem readFrame_withReceived (p : Proto) (opc : Byte) (pay : List Byte) (s : State) :
    readFrame p opc pay (s.withReceived lo v) = mapNext (State.annotated p lo v) (readFrame p opc pay s) := by
  unfold readFrame
  split
  · exact dispatchFrame_withReceived lo v ..
  · rename_i a c _ _
    exact dispatchFrame_withReceived lo v _ _ _ _ _ (s.setLastRead a c)

/-- Every handler's result and own writes are the same in both states. -/
theorem exec_withReceived (i : Instr) (s : State) :
    exec i (s.withReceived lo v) = mapNext (State.annotated i.proto lo v) (exec i s) := by
  cases i
  case p1Read pay => exact readFrame_withReceived lo v .p1 0x02 pay s
  case p2Read pay => exact readFrame_withReceived lo v .p2 0x02 pay s
  case p1BulkRead pay => exact dispatchFrame_withReceived lo v .p1 _ _ _ _ (s.setBulk (bulkReadWrites s.bulk pay))
  case p2BulkRead pay => exact dispatchFrame_withReceived lo v .p2 _ _ _ _ (s.setBulk (bulkReadWrites s.bulk pay))
  all_goals exact dispatchFrame_withReceived lo v _ _ _ _ _ s

end

/-- Settles O42: the instruction commutes with the change of the received bytes (`exec_withReceived`), and its record is
that of the frame (`exec_next_ends`), whose computed value does not depend on them. -/
theorem mismatchOnlyAnnotates : Obligations.MismatchOnlyAnnotates := by
  intro i s t lo v hexec
  obtain ⟨⟨-, -, -, -, -, -, hcur⟩, r, hout, -, -, -, -, -, -, -, hchk, -⟩ := exec_next_ends i s t hexec
  have hother : exec i (s.withReceived lo v) = .next (t.annotated i.proto lo v) := by
    rw [exec_withReceived, hexec, mapNext_next]
  refine ⟨r, r.chkExp == receivedCheck i.proto lo v, receivedCheck i.proto lo v, hout, ?_, beq_iff_eq, ?_⟩
  · rw [State.annotated, hout, hcur] at hother
    exact hother
  · revert hchk
    cases i.proto
    case p1 => exact fun ⟨hexp, _⟩ => ⟨hexp, zext16_toNat v⟩
    case p2 => exact fun ⟨hexp, _⟩ => ⟨hexp, le16_toNat lo v⟩

end Sys2Proof.Machine
